-- ==== Sys2Proof/Word.lean ====
section
/-! DEFINITION. The words that cross the ports of the IR core, and the two output levels. -/

namespace Sys2Proof

/-- A request, a response, a clock reading or a sleep argument: `REQ_W`, `RESP_W`, `CLOCK_W` and `SLEEP_W` are all 32
(00_scope.md R12). -/
abbrev Word32 := BitVec 32

/-- The 16-bit frame (R8, R37). -/
abbrev Frame := BitVec 16

/-- A 4-bit sub-field of a frame (R20). -/
abbrev Nibble := BitVec 4

/-- The two output levels a `SetLevel` call may ask for (R16, R117). -/
inductive Level
  | active
  | inactive
  deriving DecidableEq, Repr

/-- What `out_level` holds: the last level requested, or `UNKNOWN` (10_state.md R22). -/
inductive OutLevel
  | known (l : Level)
  | unknown
  deriving DecidableEq, Repr, Inhabited

/-- A code word of spec/opcode_table.json, by the row's `format`: a request word (`req32`, R51) or a frame (`frame16`,
R60). Only a request word crosses the request port (R51); see `requestWord`. -/
inductive CodeWord
  | request (w : Word32)
  | frame (f : Frame)
  deriving DecidableEq, Repr

end Sys2Proof
end

