-- ==== Sys2Proof/Config.lean ====
section
/-! DEFINITION. The parameters of the IR core (00_scope.md R9, R10, R11), and the values the spec leaves free. -/

namespace Sys2Proof

/-- The configuration fields of R9, R10 and R11, each with the spec's default (log 10). Outside the defaults the spec gives
no range; what the model does there is its own choice (log 18). -/
structure Config where
  /-- `MARK_US` (R9). -/
  markUs : Nat := 158
  /-- `SS_PAUSE_US` (R9). -/
  ssPauseUs : Nat := 1026
  /-- `LOW_PAUSE_US` (R9): the pause after a logical 0. -/
  lowPauseUs : Nat := 263
  /-- `HIGH_PAUSE_US` (R9): the pause after a logical 1. -/
  highPauseUs : Nat := 553
  /-- `CAL_ITER` (R10). -/
  calIter : Nat := 8
  /-- `CAL_SLEEP_US` (R10). -/
  calSleepUs : Nat := 1
  /-- `MPE_SHIFT` (R10). -/
  mpeShift : Nat := 4
  /-- `SETTLE_US` (R10). -/
  settleUs : Nat := 2000
  /-- `CARRIER_PERIOD_TICKS` (R10, 92_eei_decisions.md D10). -/
  carrierPeriodTicks : Nat := 26
  /-- `CAL_END_INACTIVE` (R10, D12). -/
  calEndInactive : Bool := true
  /-- `REPEATS` (R11). -/
  repeats : Nat := 5
  /-- `GAP_EARLY_SLOTS` (R11). -/
  gapEarlySlots : Nat := 5
  /-- `GAP_LATE_BASE` (R11). -/
  gapLateBase : Nat := 6
  /-- `GAP_LATE_PER_CH` (R11). -/
  gapLatePerCh : Nat := 2
  /-- `GAP_SLOT_US` (R11). -/
  gapSlotUs : Nat := 16000
  /-- `EARLY_REPS` (R11). -/
  earlyReps : Nat := 2
  deriving DecidableEq, Repr

/-- Every parameter at its default: "a conforming IR core uses exactly these defaults" (R9). The machine's `step` uses
this configuration. -/
def Config.std : Config := { }

/-- `HWERR_W`, the width of a HardwareChannel error: an OPEN parameter (R12, R111, D19). -/
opaque Config.hwErrW : Nat

/-- A HardwareChannel error value. Any value of the width is allowed: the set of values is OPEN (R111, I3). -/
abbrev HwErr := BitVec Config.hwErrW

/-- The clock draw of a `Now` call that the script does not supply (R17, I1; log 2). -/
opaque Config.freeClock : Nat → Word32

/-- What a call reports, no error or an error value, where the script does not say (R111, I3; log 2). -/
opaque Config.freeHwErr : Nat → Option HwErr

/-- `out_level` after a `SetLevel` that reported an error (I4; log 8). -/
opaque Config.freeOutLevel : Nat → OutLevel

/-- What the side port shows for `fault_req` where it is not meaningful (R30, I22; log 9). -/
opaque Config.freeFaultReq : Nat → Word32

/-- What the side port shows for `hw_err` where it is not meaningful (R30, I22; log 9). -/
opaque Config.freeHwErrPort : Nat → HwErr

end Sys2Proof
end

