-- ==== Sys2Proof/Syntax.lean ====
section
/-! DEFINITION. The instructions: one constructor per row of spec/opcode_table.json. -/

namespace Sys2Proof

/-- The Red or Blue motor slot within a channel (00_scope.md R20). -/
inductive Output
  | red
  | blue
  deriving DecidableEq, Repr

/-- The combo-direct command (R20, 40_encoder.md R67). -/
inductive Command
  | float
  | forward
  | backward
  | brake
  deriving DecidableEq, Repr

/-- The five requests of 30_encoding.md R52 and the three frame variants of R60. A channel is the channel INDEX 0..3
(90_conflicts.md C2); a speed is an integer (90_conflicts.md C4), whose range at the port is checked by `Instr.wf`. -/
inductive Instr
  /-- `ENC_SOP`, encodeSingleOutputPwm (R53, R69). -/
  | encSop (ch : BitVec 2) (out : Output) (speed : Int)
  /-- `ENC_CD`, encodeComboDirect (R54, R70). -/
  | encCd (ch : BitVec 2) (cmdR cmdB : Command)
  /-- `ENC_CP`, encodeComboPwm (R55, R71). -/
  | encCp (ch : BitVec 2) (spdR spdB : Int)
  /-- `TX_INIT`, Transmitter.new (R56, R75). -/
  | txInit
  /-- `TX_SEND`, Transmitter.sendMessage (R56, R92). -/
  | txSend (frame : Frame)
  /-- `FRAME_SOP`, a single output PWM frame (R60, R61), used in a `TX_SEND` (R118; log 7). `n3` and `lrc` are the frame's
  low nibbles as they stand: `TX_SEND` checks neither (R100). -/
  | frameSop (ch : BitVec 2) (out : Output) (n3 lrc : Nibble)
  /-- `FRAME_CD`, a combo direct frame (R60, R61), used in a `TX_SEND`. -/
  | frameCd (ch : BitVec 2) (cmdB cmdR : Command) (lrc : Nibble)
  /-- `FRAME_CP`, a combo PWM frame (R60, R61), used in a `TX_SEND`. -/
  | frameCp (ch : BitVec 2) (n2 n3 lrc : Nibble)
  deriving DecidableEq, Repr

end Sys2Proof
end

