-- ==== Sys2Proof/WellFormed.lean ====
section
/-! DEFINITION. Which instructions the request word can carry (30_encoding.md R58, R64). -/

namespace Sys2Proof

/-- The speeds the 8-bit two's complement field carries: −128..127 (R12, R58). Any other speed is an assembly error
(R64). -/
def speedInRange (v : Int) : Bool := decide (-128 ≤ v ∧ v ≤ 127)

/-- Every operand fits its field. Channels, outputs, commands and frames fit by their types (92_eei_decisions.md D4, D5,
D6); speeds are checked (D7). -/
def Instr.wf : Instr → Bool
  | .encSop _ _ speed => speedInRange speed
  | .encCd _ _ _ => true
  | .encCp _ spdR spdB => speedInRange spdR && speedInRange spdB
  | .txInit => true
  | .txSend _ => true
  | .frameSop _ _ _ _ => true
  | .frameCd _ _ _ _ => true
  | .frameCp _ _ _ _ => true

/-- `i` can be written as a request word or a frame. -/
abbrev Instr.WellFormed (i : Instr) : Prop := i.wf = true

end Sys2Proof
end

