-- ==== Sys2Proof/Decode.lean ====
section
/-! DEFINITION. Decoding a code word into an instruction, the encoder, and the assembler's text (30_encoding.md). -/

namespace Sys2Proof

/-! ### Operand codes -/

/-- Red = 0, Blue = 1 (R20, R58). -/
def Output.code : Output → BitVec 1
  | .red => 0
  | .blue => 1

/-- The output a 1-bit field names (R58). -/
def Output.ofCode (b : BitVec 1) : Output := if b = 1 then .blue else .red

/-- Float = 0, Forward = 1, Backward = 2, Brake = 3 (40_encoder.md R67). -/
def Command.code : Command → BitVec 2
  | .float => 0
  | .forward => 1
  | .backward => 2
  | .brake => 3

/-- The command a 2-bit field names (R58, R67). -/
def Command.ofCode (b : BitVec 2) : Command :=
  if b = 0 then .float else if b = 1 then .forward else if b = 2 then .backward else .brake

/-- A speed field read as two's complement: `sext_8` (R14, R58). -/
def speedOfField (b : BitVec 8) : Int := b.toInt

/-- The 8-bit field that carries a speed (R64: `speed & 0xFF`). -/
def fieldOfSpeed (v : Int) : BitVec 8 := BitVec.ofInt 8 v

/-! ### The table of fixed bits -/

/-- The fixed bits of a word of width `n`: `match` and `mask` of spec/opcode_table.json. -/
structure FixedBits (n : Nat) where
  mask : BitVec n
  pattern : BitVec n
  deriving DecidableEq, Repr

/-- The word has the row's fixed bits. -/
abbrev FixedBits.Fits {n : Nat} (r : FixedBits n) (w : BitVec n) : Prop := w &&& r.mask = r.pattern

/-- `ENC_SOP` (R53). -/
def rowEncSop : FixedBits 32 := ⟨0xFCFEFF00#32, 0x10000000#32⟩
/-- `ENC_CD` (R54). -/
def rowEncCd : FixedBits 32 := ⟨0xFCFFFCFC#32, 0x20000000#32⟩
/-- `ENC_CP` (R55). -/
def rowEncCp : FixedBits 32 := ⟨0xFCFF0000#32, 0x30000000#32⟩
/-- `TX_INIT` (R56). -/
def rowTxInit : FixedBits 32 := ⟨0xFFFFFFFF#32, 0x80000000#32⟩
/-- `TX_SEND` (R56). -/
def rowTxSend : FixedBits 32 := ⟨0xFFFF0000#32, 0x90000000#32⟩
/-- `FRAME_SOP` (R61). -/
def rowFrameSop : FixedBits 16 := ⟨0xCE00#16, 0x0400#16⟩
/-- `FRAME_CD` (R61). -/
def rowFrameCd : FixedBits 16 := ⟨0xCF00#16, 0x0100#16⟩
/-- `FRAME_CP` (R61). -/
def rowFrameCp : FixedBits 16 := ⟨0xC000#16, 0x4000#16⟩

/-! ### The decoder -/

/-- Why a request word is illegal (R57). -/
inductive Illegal
  /-- Its `op` is `0x0`, `0x4`..`0x7` or `0xA`..`0xF`. -/
  | reservedOp
  /-- A bit its layout marks `0` is 1. -/
  | mustBeZero
  deriving DecidableEq, Repr

/-- The operation of a request word: `req[31:28]` (R51). -/
def opOf (w : Word32) : BitVec 4 := w.extractLsb' 28 4

/-- The instruction of a request word, or why it is illegal (R52 to R58). -/
def decodeRequest (w : Word32) : Except Illegal Instr :=
  if opOf w = 0x1#4 then
    if rowEncSop.Fits w then
      .ok (.encSop (w.extractLsb' 24 2) (Output.ofCode (w.extractLsb' 16 1)) (speedOfField (w.extractLsb' 0 8)))
    else .error .mustBeZero
  else if opOf w = 0x2#4 then
    if rowEncCd.Fits w then
      .ok (.encCd (w.extractLsb' 24 2) (Command.ofCode (w.extractLsb' 8 2)) (Command.ofCode (w.extractLsb' 0 2)))
    else .error .mustBeZero
  else if opOf w = 0x3#4 then
    if rowEncCp.Fits w then
      .ok (.encCp (w.extractLsb' 24 2) (speedOfField (w.extractLsb' 8 8)) (speedOfField (w.extractLsb' 0 8)))
    else .error .mustBeZero
  else if opOf w = 0x8#4 then
    if rowTxInit.Fits w then .ok .txInit else .error .mustBeZero
  else if opOf w = 0x9#4 then
    if rowTxSend.Fits w then .ok (.txSend (w.extractLsb' 0 16)) else .error .mustBeZero
  else .error .reservedOp

/-- The instruction of a frame that the Host uses in a `TX_SEND` (R118): its variant by its fixed bits (R61); a frame of no
variant is still sent by `TX_SEND` as it is (R61, R100; log 7). -/
def decodeFrame (f : Frame) : Instr :=
  if rowFrameSop.Fits f then
    .frameSop (f.extractLsb' 12 2) (Output.ofCode (f.extractLsb' 8 1)) (f.extractLsb' 4 4) (f.extractLsb' 0 4)
  else if rowFrameCd.Fits f then
    .frameCd (f.extractLsb' 12 2) (Command.ofCode (f.extractLsb' 6 2)) (Command.ofCode (f.extractLsb' 4 2))
      (f.extractLsb' 0 4)
  else if rowFrameCp.Fits f then
    .frameCp (f.extractLsb' 12 2) (f.extractLsb' 8 4) (f.extractLsb' 4 4) (f.extractLsb' 0 4)
  else .txSend f

/-- The decoder, total on every code word. -/
def decode : CodeWord → Except Illegal Instr
  | .request w => decodeRequest w
  | .frame f => .ok (decodeFrame f)

/-- The code word of a table row's bits: rows of 16 bits are frames, rows of 32 bits are request words. -/
def codeOf (nbits w : Nat) : CodeWord :=
  if nbits ≤ 16 then .frame (BitVec.ofNat 16 w) else .request (BitVec.ofNat 32 w)

/-- The instruction the decoder reads from a row's bits, as spec/opcode_table.json numbers them. -/
def decodeTableWord (nbits w : Nat) : Option Instr :=
  match decode (codeOf nbits w) with
  | .ok i => some i
  | .error _ => none

/-! ### The encoder, from the layouts of R53 to R56 and R60 -/

/-- The `TX_SEND` request word of a frame (R56). -/
def sendWord (f : Frame) : Word32 := 0x9#4 ++ 0#12 ++ f

/-- The request word in which a code word crosses the request port: a request word is itself, and a frame crosses in bits
15:0 of a `TX_SEND` word (20_memory.md R39, 60_exceptions.md R118; log 7). A word crosses whole, so there is no byte order
(R39). -/
def requestWord : CodeWord → Word32
  | .request w => w
  | .frame f => sendWord f

/-- The `TX_INIT` request word (R56). -/
def initWord : Word32 := 0x80000000#32

/-- A single output PWM frame: `00cc 010o n3 lrc` (R60). -/
def frameSopBits (ch : BitVec 2) (out : Output) (n3 lrc : Nibble) : Frame :=
  0#2 ++ ch ++ 0b010#3 ++ out.code ++ n3 ++ lrc

/-- A combo direct frame: `00cc 0001 BBRR lrc` (R60). -/
def frameCdBits (ch : BitVec 2) (cmdB cmdR : Command) (lrc : Nibble) : Frame :=
  0#2 ++ ch ++ 0b0001#4 ++ cmdB.code ++ cmdR.code ++ lrc

/-- A combo PWM frame: `01cc n2 n3 lrc` (R60). -/
def frameCpBits (ch : BitVec 2) (n2 n3 lrc : Nibble) : Frame :=
  0b01#2 ++ ch ++ n2 ++ n3 ++ lrc

/-- The code word of an instruction. -/
def encode : Instr → CodeWord
  | .encSop ch out speed => .request (0x1#4 ++ 0#2 ++ ch ++ 0#7 ++ out.code ++ 0#8 ++ fieldOfSpeed speed)
  | .encCd ch cmdR cmdB => .request (0x2#4 ++ 0#2 ++ ch ++ 0#14 ++ cmdR.code ++ 0#6 ++ cmdB.code)
  | .encCp ch spdR spdB => .request (0x3#4 ++ 0#2 ++ ch ++ 0#8 ++ fieldOfSpeed spdR ++ fieldOfSpeed spdB)
  | .txInit => .request initWord
  | .txSend f => .request (sendWord f)
  | .frameSop ch out n3 lrc => .frame (frameSopBits ch out n3 lrc)
  | .frameCd ch cmdB cmdR lrc => .frame (frameCdBits ch cmdB cmdR lrc)
  | .frameCp ch n2 n3 lrc => .frame (frameCpBits ch n2 n3 lrc)

/-! ### The assembler's text (R64) -/

/-- The alias of an output operand (R64). -/
def Output.asm : Output → String
  | .red => "red"
  | .blue => "blue"

/-- The alias of a command operand (R64). -/
def Command.asm : Command → String
  | .float => "float"
  | .forward => "fwd"
  | .backward => "bwd"
  | .brake => "brake"

/-- The textual form of a request (R64). A frame row has no form of its own; it is written as the `tx.send` it is used in
(R118). Speeds are signed decimals; channels and frames are written in decimal. -/
def Instr.asm : Instr → String
  | .encSop ch out speed => "enc.sop " ++ toString ch.toNat ++ ", " ++ out.asm ++ ", " ++ toString speed
  | .encCd ch cmdR cmdB => "enc.cd " ++ toString ch.toNat ++ ", " ++ cmdR.asm ++ ", " ++ cmdB.asm
  | .encCp ch spdR spdB => "enc.cp " ++ toString ch.toNat ++ ", " ++ toString spdR ++ ", " ++ toString spdB
  | .txInit => "tx.init"
  | .txSend f => "tx.send " ++ toString f.toNat
  | .frameSop ch out n3 lrc => "tx.send " ++ toString (frameSopBits ch out n3 lrc).toNat
  | .frameCd ch cmdB cmdR lrc => "tx.send " ++ toString (frameCdBits ch cmdB cmdR lrc).toNat
  | .frameCp ch n2 n3 lrc => "tx.send " ++ toString (frameCpBits ch n2 n3 lrc).toNat

end Sys2Proof
end

