-- ==== Sys2Proof/Machine/State.lean ====
section
/-! DEFINITION. The state of the IR core (10_state.md), the events it exchanges with its ports, and the reasons a step can
stop. -/

namespace Sys2Proof.Machine

/-- The FSM state `st` (R23). Codes 5, 6 and 7 are never held (I16), so they have no name. -/
inductive St
  | uninit
  | calibrating
  | calibrated
  | transmitting
  | faulted
  deriving DecidableEq, Repr

/-- The step within the current symbol or pause (R27). Code 7 is unused (I17). -/
inductive Phase
  | idle
  | cal
  | markOn
  | markWait
  | spaceOn
  | spaceWait
  | gap
  deriving DecidableEq, Repr

/-- The calibration sub-step (41_transmitter.md R79). Codes 11..15 are never held (I18). -/
inductive CalStep
  | cLow
  | cCarrier
  | cT0
  | cAct
  | cSlp
  | cT1
  | cInact
  | cT2
  | cDummy
  | cT3
  | cSettle
  deriving DecidableEq, Repr

/-- The fault codes (60_exceptions.md R106). Codes 6..15 are never written (I19). -/
inductive FaultCode
  | noFault
  | illegalRequest
  | sendNotCalibrated
  | sendBusy
  | initTwice
  | hwError
  deriving DecidableEq, Repr

/-- A HardwareChannel event (00_scope.md R19): the call made, with its argument; for `now`, the clock draw it returns
(R17). -/
inductive Event
  | level (l : Level)
  | carrier (periodTicks : Nat)
  | sleep (d : Word32)
  | now (t : Word32)
  deriving DecidableEq, Repr

/-- One event that happens to the IR core (R112, R118, R123; log 1). -/
inductive Turn
  /-- The Host puts a request word on the request port: 32 bits, the only length (R51, R118). -/
  | port (w : Word32)
  /-- The Host asserts reset (R123). -/
  | reset
  /-- The Transmitter takes its next step (R16). `clock` is the draw a `Now` call returns (R17); other calls ignore it. -/
  | txStep (clock : Word32)
  /-- The outstanding HardwareChannel call returns, without an error or with one (R111). -/
  | hwReturn (err : Option HwErr)
  /-- A call that a reset or a fault abandoned returns; its return is ignored (R123, I7). -/
  | lateReturn
  deriving DecidableEq, Repr

/-- A register that the spec gives no reset value (R22, R28, R34). It always holds a value of its width, with the mark
whether a rule has written it since reset: reading it before that must fault (R28). -/
inductive RegVal (α : Type)
  /-- A rule has written `a`. -/
  | written (a : α)
  /-- No rule has written it since reset: R22's "none (unwritten)". `a` is its value meanwhile, the model's choice (log 3). -/
  | fresh (a : α)
  deriving DecidableEq, Repr

/-- A rule has written the register since reset. -/
def RegVal.isWritten {α : Type} : RegVal α → Bool
  | .written _ => true
  | .fresh _ => false

/-- The registers that are unwritten at reset and that a rule reads (R28). -/
inductive Reg
  | wawe
  | mpe
  | calStep
  | calI
  | t0
  | t2
  | f
  | ch
  | rep
  | sym
  deriving DecidableEq, Repr

/-- Why the machine stops. No state that a run from reset reaches stops. -/
inductive Fault
  /-- The Transmitter's sequencer reads a register that no rule has written since reset: "A model must fault if it reads
  such a register" (R28, I21). Safe: the rules never do it. -/
  | unwritten (r : Reg)
  /-- The sequencer position names no HardwareChannel call (R27, I16 to I18: stuck). Raised by the Transmitter's step and
  by a call's return. Safe: the rules never reach such a position. -/
  | noSuchPosition
  deriving DecidableEq, Repr

/-- Why an instruction has no meaning. -/
inductive Refusal
  /-- An instruction without a meaning yet; raised only by `exec`'s arms. Safe. No arm raises it. -/
  | notModelled (mnemonic : String)
  deriving DecidableEq, Repr

/-- The whole machine. A register that the spec gives no reset value is a `RegVal`: a value, and whether it has been
written since reset (R22, R28, R34; log 3). -/
structure State where
  /-- `st` (R22, R23). -/
  st : St
  /-- `phase` (R22, R27); `P_IDLE` at reset (R34, R123; log 17). -/
  phase : Phase
  /-- writeAndWaitEffort (R22, R24). -/
  wawe : RegVal (BitVec 29)
  /-- messageProcessingEffort (R22, R25). -/
  mpe : RegVal (BitVec 28)
  /-- `cal_step` (R22, R79). -/
  calStep : RegVal CalStep
  /-- `cal_i` (R22, R79). -/
  calI : RegVal (BitVec 4)
  /-- Clock reading `t0` (R22, R81). -/
  t0 : RegVal Word32
  /-- Clock reading `t1` (R22, R82). -/
  t1 : RegVal Word32
  /-- Clock reading `t2` (R22, R84). -/
  t2 : RegVal Word32
  /-- Clock reading `t3` (R22, R85). -/
  t3 : RegVal Word32
  /-- The frame being transmitted (R22, R93). -/
  f : RegVal Frame
  /-- Its logical channel 1..4 (R22, R94). -/
  ch : RegVal (BitVec 3)
  /-- The repetition index (R22, R95). -/
  rep : RegVal (BitVec 3)
  /-- The symbol index 0..17 (R22, R95). -/
  sym : RegVal (BitVec 5)
  /-- `fault_code` (R22, R106). -/
  faultCode : FaultCode
  /-- The request word a fault is charged to (R22, R108). -/
  faultReq : RegVal Word32
  /-- The error value a HardwareChannel call reported (R22, R111). -/
  hwErr : RegVal HwErr
  /-- Shadow of the last level requested (R22, R32). -/
  outLevel : OutLevel
  /-- The HardwareChannel call made and not yet returned (R16, R136; log 4). -/
  outstanding : Option Event
  /-- Calls that a reset or a fault left outstanding, oldest first (R108, R123, R136; log 5). -/
  abandoned : List Event
  /-- The events emitted so far, oldest first (R19, R44; log 6). -/
  trace : List Event
  /-- The responses given so far, oldest first (R59, R136; log 6). -/
  responses : List Word32
  /-- The MODEL's own: how many requests have been accepted (R136; log 6). -/
  accepted : Nat
  /-- The MODEL's own: the events that come next, oldest first (R112, I5; log 1). -/
  script : List Turn
  /-- The MODEL's own: the counter that free values are applied to (log 2). -/
  draws : Nat
  deriving DecidableEq, Repr

/-- The machine right after reset (R34, R123), with no event in its past and none to come. The registers that the spec
gives no reset value are unwritten and hold 0 (`cal_step`: `C_LOW`), the model's choice (log 3). -/
def State.reset : State where
  st := .uninit
  phase := .idle
  wawe := .fresh 0
  mpe := .fresh 0
  calStep := .fresh .cLow
  calI := .fresh 0
  t0 := .fresh 0
  t1 := .fresh 0
  t2 := .fresh 0
  t3 := .fresh 0
  f := .fresh 0
  ch := .fresh 0
  rep := .fresh 0
  sym := .fresh 0
  faultCode := .noFault
  faultReq := .fresh 0
  hwErr := .fresh 0
  outLevel := .unknown
  outstanding := none
  abandoned := []
  trace := []
  responses := []
  accepted := 0
  script := []
  draws := 0

/-- The outcome of a step of this machine. -/
abbrev Result := Host.Outcome State Fault Refusal

end Sys2Proof.Machine
end

