-- ==== Sys2Proof/Machine/Ops.lean ====
section
/-! DEFINITION. The named operations on the state: reading a register, answering, making and ending a HardwareChannel call,
raising a fault, reset. -/

namespace Sys2Proof.Machine

/-- Reading a register. One that no rule has written since reset stops the machine: "A model must fault if it reads such a
register" (R28, I21), whatever value the field holds. -/
def needReg {α β : Type} (r : Reg) (v : RegVal α) (k : α → Except Fault β) : Except Fault β :=
  match v with
  | .written a => k a
  | .fresh _ => .error (.unwritten r)

/-- A computed next state, or the stop, as the outcome of a step. -/
def toResult : Except Fault State → Result
  | .ok s => .next s
  | .error r => .fault r

/-- The events that come next (log 1). -/
def setScript (turns : List Turn) (s : State) : State := { s with script := turns }

/-- A response leaves on the response port (R59). -/
def respond (resp : Word32) (s : State) : State := { s with responses := s.responses ++ [resp] }

/-- A request is accepted (R45). -/
def accept (s : State) : State := { s with accepted := s.accepted + 1 }

/-- `out_level` after a call is made: "shadow of the last level the Transmitter requested" (R22). -/
def Event.shadow (e : Event) (l : OutLevel) : OutLevel :=
  match e with
  | .level x => .known x
  | .carrier _ => l
  | .sleep _ => l
  | .now _ => l

/-- The Transmitter makes a HardwareChannel call: its event joins the trace (R19) and the call is outstanding until it
returns (R16). -/
def makeCall (e : Event) (s : State) : State :=
  { s with trace := s.trace ++ [e], outstanding := some e, outLevel := e.shadow s.outLevel }

/-- The outstanding call has returned. -/
def endCall (s : State) : State := { s with outstanding := none }

/-- TAKING A FAULT, in one step (R108): the code and the request word are saved, `st` is `FAULTED`, `phase` is `P_IDLE`,
and the output is not driven. A call still outstanding is abandoned: the operation gets no response (log 5). -/
def raiseFault (code : FaultCode) (req : Word32) (s : State) : State :=
  { s with
    st := .faulted
    phase := .idle
    faultCode := code
    faultReq := .written req
    outstanding := none
    abandoned := s.abandoned ++ s.outstanding.toList }

/-- LEAVING A FAULT: reset, the only way (R123, R124). Every register takes its reset value; what the Host and the
collaborator have already seen stays (log 6), and a call still outstanding is abandoned (log 5). -/
def resetCore (s : State) : State :=
  { State.reset with
    trace := s.trace
    responses := s.responses
    accepted := s.accepted
    script := s.script
    draws := s.draws
    abandoned := s.abandoned ++ s.outstanding.toList }

/-- The request word of the operation in flight (R108, code 5). -/
def inFlightWord (s : State) : Except Fault Word32 :=
  match s.st with
  | .calibrating => .ok initWord
  | .transmitting => needReg .f s.f fun f => .ok (sendWord f)
  | .uninit => .error .noSuchPosition
  | .calibrated => .error .noSuchPosition
  | .faulted => .error .noSuchPosition

/-- After a failed `SetLevel` no claim may rest on `out_level` (I4): it takes a free value. After any other failed call it
keeps its value (log 8). -/
def blurLevel (e : Event) (s : State) : State :=
  match e with
  | .level _ => { s with outLevel := Config.freeOutLevel s.draws, draws := s.draws + 1 }
  | .carrier _ => s
  | .sleep _ => s
  | .now _ => s

/-- A HardwareChannel call `e` has reported the error `x`: it is latched unmodified and `HW_ERROR` is raised, charged to
the operation in flight (R108, R111). -/
def takeHwError (e : Event) (x : HwErr) (s : State) : Except Fault State :=
  match inFlightWord s with
  | .ok w => .ok (raiseFault .hwError w { blurLevel e (endCall s) with hwErr := .written x })
  | .error r => .error r

/-- `TX_INIT` is accepted: the sequencer stands at `C_LOW` (R75). -/
def startCalibration (s : State) : State :=
  { s with st := .calibrating, phase := .cal, calStep := .written .cLow, calI := .written 0 }

/-- The operation in flight completes: idle, with a valid profile, and the completion `resp = 0` (R59, R87, R99). -/
def complete (s : State) : State := respond 0 { s with st := .calibrated, phase := .idle }

end Sys2Proof.Machine
end

