-- ==== Sys2Proof/Machine/Encoder.lean ====
section
/-! DEFINITION. The Encoder: `pfc`, `packFrame`, and the meanings of `ENC_SOP`, `ENC_CD` and `ENC_CP` (40_encoder.md). -/

namespace Sys2Proof.Machine

/-- `pfc(v)`, the source's pwmOrFloatCode (R65). -/
def pfc (v : Int) : Nibble :=
  if 1 ≤ v ∧ v ≤ 7 then BitVec.ofInt 4 v
  else if v = 0 then 0b1000
  else if -7 ≤ v ∧ v ≤ -1 then BitVec.ofInt 4 (16 + v)
  else 0b0000

/-- The LRC: `0xF xor n1 xor n2 xor n3` (R66). -/
def lrcOf (n1 n2 n3 : Nibble) : Nibble := 0xF ^^^ n1 ^^^ n2 ^^^ n3

/-- `packFrame(n1, n2, n3)` (R66): the nibbles from high to low, the LRC lowest (R37). -/
def packFrame (n1 n2 n3 : Nibble) : Frame := n1 ++ n2 ++ n3 ++ lrcOf n1 n2 n3

/-- The frame of `ENC_SOP` (R69). -/
def sopFrame (ch : BitVec 2) (out : Output) (speed : Int) : Frame :=
  packFrame (ch.setWidth 4) (4 + out.code.setWidth 4) (pfc speed)

/-- The frame of `ENC_CD` (R70): Blue in the high half of `n3`. -/
def cdFrame (ch : BitVec 2) (cmdR cmdB : Command) : Frame :=
  packFrame (ch.setWidth 4) 0b0001 ((cmdB.code.setWidth 4 <<< 2) ||| cmdR.code.setWidth 4)

/-- The frame of `ENC_CP` (R71): Blue in `n2`, Red in `n3`. -/
def cpFrame (ch : BitVec 2) (spdR spdB : Int) : Frame :=
  packFrame (4 + ch.setWidth 4) (pfc spdB) (pfc spdR)

/-- An Encoder request is answered in the step that accepts it, in every state but `FAULTED`, where nothing is taken (R45,
R74, R107, R109). -/
def answerFrame (frame : Frame) (s : State) : Result :=
  if s.st = .faulted then .next s else .next (respond (frame.setWidth 32) (accept s))

/-- `ENC_SOP` (R69). -/
def execEncSop (ch : BitVec 2) (out : Output) (speed : Int) (s : State) : Result :=
  answerFrame (sopFrame ch out speed) s

/-- `ENC_CD` (R70). -/
def execEncCd (ch : BitVec 2) (cmdR cmdB : Command) (s : State) : Result :=
  answerFrame (cdFrame ch cmdR cmdB) s

/-- `ENC_CP` (R71). -/
def execEncCp (ch : BitVec 2) (spdR spdB : Int) (s : State) : Result :=
  answerFrame (cpFrame ch spdR spdB) s

end Sys2Proof.Machine
end

