-- ==== Sys2Proof/Machine/Operands.lean ====
section
/-! DEFINITION. The values the Transmitter computes: the efforts, the compensated sleeps, the pauses, the gaps, the
logical channel. -/

namespace Sys2Proof.Machine

/-- `wawe`: `((t1 − t0) mod 2^CLOCK_W) div CAL_ITER` (R82). -/
def waweOf (c : Config) (t0 t1 : Word32) : BitVec 29 := BitVec.ofNat 29 ((t1 - t0).toNat / c.calIter)

/-- `mpe`: `((t3 − t2) mod 2^CLOCK_W) >> MPE_SHIFT` (R85). -/
def mpeOf (c : Config) (t2 t3 : Word32) : BitVec 28 := BitVec.ofNat 28 ((t3 - t2).toNat >>> c.mpeShift)

/-- `max(1, d)` as the 32-bit argument of a sleep: the subtraction is in ℤ, then clamped (R90, 92_eei_decisions.md D9). -/
def clampSleep (d : Int) : Word32 := BitVec.ofInt 32 (max 1 d)

/-- `markSleep(m) = max(1, m − wawe)` (R90). -/
def markSleep (m : Nat) (wawe : BitVec 29) : Word32 := clampSleep ((m : Int) - (wawe.toNat : Int))

/-- `pauseSleep(p) = max(1, p − wawe − mpe)` (R90). -/
def pauseSleep (p : Nat) (wawe : BitVec 29) (mpe : BitVec 28) : Word32 :=
  clampSleep ((p : Int) - (wawe.toNat : Int) - (mpe.toNat : Int))

/-- `pauseOf(sym, f)` (R96): symbols 0 and 17 are START and STOP, symbol `sym` in 1..16 carries bit `16 − sym`. No other
symbol exists. -/
def pauseOf (c : Config) (sym : BitVec 5) (f : Frame) : Option Nat :=
  if sym.toNat = 0 ∨ sym.toNat = 17 then some c.ssPauseUs
  else if sym.toNat ≤ 16 then
    some (if f.getLsbD (16 - sym.toNat) then c.highPauseUs else c.lowPauseUs)
  else none

/-- The 16 ms slots of the gap after repetition `rep` (R97). -/
def gapSlots (c : Config) (rep ch : BitVec 3) : Nat :=
  if rep.toNat < c.earlyReps then c.gapEarlySlots else c.gapLateBase + c.gapLatePerCh * ch.toNat

/-- `gap(rep, ch)` in microseconds, uncompensated (R97). -/
def gap (c : Config) (rep ch : BitVec 3) : Word32 := BitVec.ofNat 32 (gapSlots c rep ch * c.gapSlotUs)

/-- The logical channel of a frame: `1 + f[13:12]` (R94). -/
def logicalChannel (f : Frame) : BitVec 3 := 1 + (f.extractLsb' 12 2).setWidth 3

end Sys2Proof.Machine
end

