-- ==== Sys2Proof/Machine/Transmitter.lean ====
section
/-! DEFINITION. The meanings of `TX_INIT` and `TX_SEND`: the acceptance of the request (41_transmitter.md R75, R92). What
follows an acceptance is the sequencer's (Machine/Sequencer.lean). -/

namespace Sys2Proof.Machine

/-- `TX_INIT` (R75, R107). -/
def execTxInit (s : State) : Result :=
  match s.st with
  | .uninit => .next (startCalibration (accept s))
  | .calibrating => .next (raiseFault .initTwice initWord s)
  | .calibrated => .next (raiseFault .initTwice initWord s)
  | .transmitting => .next (raiseFault .initTwice initWord s)
  | .faulted => .next s

/-- A frame is accepted for transmission (R92 to R95): it is latched with its logical channel, and the sequencer stands at
the first mark of repetition 0. -/
def startSend (frame : Frame) (s : State) : State :=
  { s with
    st := .transmitting
    phase := .markOn
    f := .written frame
    ch := .written (logicalChannel frame)
    rep := .written 0
    sym := .written 0 }

/-- A frame reaches the Transmitter in a `TX_SEND` (R92, R107). No bit of it is checked (R100). -/
def sendFrame (frame : Frame) (s : State) : Result :=
  match s.st with
  | .uninit => .next (raiseFault .sendNotCalibrated (sendWord frame) s)
  | .calibrating => .next (raiseFault .sendNotCalibrated (sendWord frame) s)
  | .calibrated => .next (startSend frame (accept s))
  | .transmitting => .next (raiseFault .sendBusy (sendWord frame) s)
  | .faulted => .next s

/-- `TX_SEND` (R92). -/
def execTxSend (frame : Frame) (s : State) : Result := sendFrame frame s

end Sys2Proof.Machine
end

