-- ==== Sys2Proof/Machine/Frames.lean ====
section
/-! DEFINITION. The meanings of the frame rows `FRAME_SOP`, `FRAME_CD` and `FRAME_CP` (30_encoding.md R60, R61): the Host
uses the frame "in a `TX_SEND`" (60_exceptions.md R118; log 7). -/

namespace Sys2Proof.Machine

/-- `FRAME_SOP`: a single output PWM frame is sent. -/
def execFrameSop (ch : BitVec 2) (out : Output) (n3 lrc : Nibble) (s : State) : Result :=
  sendFrame (frameSopBits ch out n3 lrc) s

/-- `FRAME_CD`: a combo direct frame is sent. -/
def execFrameCd (ch : BitVec 2) (cmdB cmdR : Command) (lrc : Nibble) (s : State) : Result :=
  sendFrame (frameCdBits ch cmdB cmdR lrc) s

/-- `FRAME_CP`: a combo PWM frame is sent. -/
def execFrameCp (ch : BitVec 2) (n2 n3 lrc : Nibble) (s : State) : Result :=
  sendFrame (frameCpBits ch n2 n3 lrc) s

end Sys2Proof.Machine
end

