-- ==== Sys2Proof/Machine/Dispatch.lean ====
section
/-! DEFINITION. One meaning per instruction. -/

namespace Sys2Proof.Machine

def exec (i : Instr) (s : State) : Host.Outcome State Fault Refusal :=
  match i with
  | .encSop ch out speed => Sys2Proof.Machine.execEncSop ch out speed s
  | .encCd ch cmdR cmdB => Sys2Proof.Machine.execEncCd ch cmdR cmdB s
  | .encCp ch spdR spdB => Sys2Proof.Machine.execEncCp ch spdR spdB s
  | .txInit => Sys2Proof.Machine.execTxInit s
  | .txSend frame => Sys2Proof.Machine.execTxSend frame s
  | .frameSop ch out n3 lrc => Sys2Proof.Machine.execFrameSop ch out n3 lrc s
  | .frameCd ch cmdB cmdR lrc => Sys2Proof.Machine.execFrameCd ch cmdB cmdR lrc s
  | .frameCp ch n2 n3 lrc => Sys2Proof.Machine.execFrameCp ch n2 n3 lrc s

end Sys2Proof.Machine
end

