-- ==== Sys2Proof/Machine/Sequencer.lean ====
section
/-! DEFINITION. The Transmitter's sequencer: the HardwareChannel call each position names, and what the call's return does
(10_state.md R27; 41_transmitter.md R76 to R99). -/

namespace Sys2Proof.Machine

/-- The call of a calibration sub-step (R79); `C_DUMMY` makes none. `clock` is the draw a `Now` returns. -/
def calCall (c : Config) (clock : Word32) : CalStep → Option Event
  | .cLow => some (.level .inactive)
  | .cCarrier => some (.carrier c.carrierPeriodTicks)
  | .cT0 => some (.now clock)
  | .cAct => some (.level .active)
  | .cSlp => some (.sleep (BitVec.ofNat 32 c.calSleepUs))
  | .cT1 => some (.now clock)
  | .cInact => some (.level .inactive)
  | .cT2 => some (.now clock)
  | .cDummy => none
  | .cT3 => some (.now clock)
  | .cSettle => some (.sleep (BitVec.ofNat 32 c.settleUs))

/-- The argument of the pause sleep of the symbol `sym` (R89, R90, R96). -/
def pauseCall (c : Config) (s : State) : Except Fault (Option Event) :=
  needReg .sym s.sym fun sym =>
  needReg .f s.f fun f =>
  needReg .wawe s.wawe fun wawe =>
  needReg .mpe s.mpe fun mpe =>
  match pauseOf c sym f with
  | some p => .ok (some (.sleep (pauseSleep p wawe mpe)))
  | none => .error .noSuchPosition

/-- The next call of an operation in flight, from the sequencer position (R27): none at the silent step `C_DUMMY`. -/
def nextCall (c : Config) (clock : Word32) (s : State) : Except Fault (Option Event) :=
  match s.st, s.phase with
  | .calibrating, .cal => needReg .calStep s.calStep fun k => .ok (calCall c clock k)
  | .transmitting, .markOn => .ok (some (.level .active))
  | .transmitting, .markWait => needReg .wawe s.wawe fun wawe => .ok (some (.sleep (markSleep c.markUs wawe)))
  | .transmitting, .spaceOn => .ok (some (.level .inactive))
  | .transmitting, .spaceWait => pauseCall c s
  | .transmitting, .gap =>
    needReg .rep s.rep fun rep => needReg .ch s.ch fun ch => .ok (some (.sleep (gap c rep ch)))
  | _, _ => .error .noSuchPosition

/-- An operation is in flight. -/
def St.busy : St → Bool
  | .uninit => false
  | .calibrating => true
  | .calibrated => false
  | .transmitting => true
  | .faulted => false

/-- The silent step `C_DUMMY`: no call, no register but the position (R79, R84). -/
def dummyStep (s : State) : State := { s with calStep := .written .cT3 }

/-- The Transmitter takes its next step: it makes the call its position names. While a call is outstanding it is blocked
(R16), and with no operation in flight it has no step to take (R27). -/
def txStep (c : Config) (clock : Word32) (s : State) : Result :=
  if s.outstanding.isSome then .next s
  else if s.st.busy then
    match nextCall c clock s with
    | .ok (some e) => .next (makeCall e s)
    | .ok none => .next (dummyStep s)
    | .error r => .fault r
  else .next s

/-- The sub-step after a calibration call has returned (R79), with the register it writes. `e` is the call, `s` the state
in which it is no longer outstanding. R10 gives `CAL_ITER` no range: at 16 or more the 4-bit `cal_i` wraps and the loop does
not end, and at 0 one iteration still runs (log 18, DESIGN CHOICE). -/
def afterCal (c : Config) (e : Event) (k : CalStep) (s : State) : Except Fault State :=
  match k, e with
  | .cLow, _ => .ok { s with calStep := .written .cCarrier }
  | .cCarrier, _ => .ok { s with calStep := .written .cT0 }
  | .cT0, .now t => .ok { s with t0 := .written t, calI := .written 0, calStep := .written .cAct }
  | .cAct, _ => .ok { s with calStep := .written .cSlp }
  | .cSlp, _ =>
    needReg .calI s.calI fun n =>
    .ok { s with calI := .written (n + 1), calStep := .written (if (n + 1).toNat < c.calIter then .cAct else .cT1) }
  | .cT1, .now t =>
    needReg .t0 s.t0 fun t0 =>
    .ok { s with
      t1 := .written t
      wawe := .written (waweOf c t0 t)
      calStep := .written (if c.calEndInactive then .cInact else .cT2) }
  | .cInact, _ => .ok { s with calStep := .written .cT2 }
  | .cT2, .now t => .ok { s with t2 := .written t, calStep := .written .cDummy }
  | .cT3, .now t =>
    needReg .t2 s.t2 fun t2 =>
    .ok { s with t3 := .written t, mpe := .written (mpeOf c t2 t), calStep := .written .cSettle }
  | .cSettle, _ => .ok (complete s)
  | _, _ => .error .noSuchPosition

/-- The position after a pause sleep: the next symbol, or the gap after symbol 17 (R95). -/
def afterPause (s : State) : Except Fault State :=
  needReg .sym s.sym fun sym =>
  if sym < 17 then .ok { s with sym := .written (sym + 1), phase := .markOn } else .ok { s with phase := .gap }

/-- The position after a gap: the next repetition, or completion after the last (R95, R99; log 12). R11 gives `REPEATS`
no range: at 8 or more the 3-bit `rep` wraps and the `TX_SEND` does not complete, and at 0 one repetition still runs (log 18,
DESIGN CHOICE). -/
def afterGap (c : Config) (s : State) : Except Fault State :=
  needReg .rep s.rep fun rep =>
  if (rep + 1).toNat < c.repeats then .ok { s with rep := .written (rep + 1), sym := .written 0, phase := .markOn }
  else .ok (complete { s with rep := .written (rep + 1) })

/-- The call `e` has returned without an error: the rules' register writes, and the sequencer moves on. -/
def afterReturn (c : Config) (e : Event) (s : State) : Except Fault State :=
  match s.st, s.phase with
  | .calibrating, .cal => needReg .calStep s.calStep fun k => afterCal c e k s
  | .transmitting, .markOn => .ok { s with phase := .markWait }
  | .transmitting, .markWait => .ok { s with phase := .spaceOn }
  | .transmitting, .spaceOn => .ok { s with phase := .spaceWait }
  | .transmitting, .spaceWait => afterPause s
  | .transmitting, .gap => afterGap c s
  | _, _ => .error .noSuchPosition

/-- The HardwareChannel returns from the outstanding call. A return with no call outstanding is ignored (R123). -/
def hwReturn (c : Config) (err : Option HwErr) (s : State) : Result :=
  match s.outstanding with
  | none => .next s
  | some e =>
    match err with
    | none => toResult (afterReturn c e (endCall s))
    | some x => toResult (takeHwError e x s)

end Sys2Proof.Machine
end

