-- ==== Sys2Proof/Machine/Turns.lean ====
section
/-! DEFINITION. What each event does to the IR core: a word on the request port, a reset, a Transmitter step, a return; and
what happens when the script names no event. -/

namespace Sys2Proof.Machine

/-- An illegal word raises `ILLEGAL_REQUEST` in every state but `FAULTED`, where nothing is taken (R57, R107, R109). -/
def illegalWord (w : Word32) (s : State) : Result :=
  if s.st = .faulted then .next s else .next (raiseFault .illegalRequest w s)

/-- The Host puts a request word on the request port: first the decode check, by `op` (R51), then the instruction (R112). -/
def portTurn (w : Word32) (s : State) : Result :=
  match decodeRequest w with
  | .ok i => exec i s
  | .error _ => illegalWord w s

/-- A return of an abandoned call: it is ignored (R123, I7). -/
def lateReturn (s : State) : State := { s with abandoned := s.abandoned.tail }

/-- One event of the script. -/
def takeTurn (c : Config) (t : Turn) (s : State) : Result :=
  match t with
  | .port w => portTurn w s
  | .reset => .next (resetCore s)
  | .txStep clock => txStep c clock s
  | .hwReturn err => hwReturn c err s
  | .lateReturn => .next (lateReturn s)

/-- A free value is used up. -/
def nextDraw (s : State) : State := { s with draws := s.draws + 1 }

/-- The script names no event, so the Host does nothing. An outstanding call returns (R119: every call returns), else the
Transmitter steps, else an abandoned call returns, else nothing happens: the core waits for a request (R125; log 2). -/
def idleTurn (c : Config) (s : State) : Result :=
  if s.outstanding.isSome then hwReturn c (Config.freeHwErr s.draws) (nextDraw s)
  else if s.st.busy then txStep c (Config.freeClock s.draws) (nextDraw s)
  else .next (lateReturn s)

/-- One step of the IR core with the parameters `c`. -/
def stepUnder (c : Config) (s : State) : Result :=
  match s.script with
  | [] => idleTurn c s
  | t :: rest => takeTurn c t (setScript rest s)

end Sys2Proof.Machine
end

