-- ==== Sys2Proof/Machine/Step.lean ====
section
/-! DEFINITION. One step of the machine, and where the next instruction is taken from. -/

namespace Sys2Proof.Machine

/-- One step of the IR core, every parameter at its default (R9; log 10). -/
def step (s : State) : Host.Outcome State Fault Refusal := stepUnder Config.std s

/-- `s` with a table row's word as the next event: the Host puts the request word that carries it on the request port
(log 11). -/
def State.withFetchWord (s : State) (nbits w : Nat) : State :=
  setScript (.port (requestWord (codeOf nbits w)) :: s.script) s

end Sys2Proof.Machine
end

