-- ==== Sys2Proof/Machine/Flags.lean ====
section
/-! DEFINITION. The `STATUS` word and the side port: what the Host may read, at any time, with no side effect (10_state.md
R30). The IR core has no arithmetic flags. -/

namespace Sys2Proof.Machine

/-- The encoding of `st` (R23). -/
def St.code : St → BitVec 3
  | .uninit => 0
  | .calibrating => 1
  | .calibrated => 2
  | .transmitting => 3
  | .faulted => 4

/-- The encoding of `phase` (R27). -/
def Phase.code : Phase → BitVec 3
  | .idle => 0
  | .cal => 1
  | .markOn => 2
  | .markWait => 3
  | .spaceOn => 4
  | .spaceWait => 5
  | .gap => 6

/-- The encoding of `cal_step` (R79). -/
def CalStep.code : CalStep → BitVec 4
  | .cLow => 0
  | .cCarrier => 1
  | .cT0 => 2
  | .cAct => 3
  | .cSlp => 4
  | .cT1 => 5
  | .cInact => 6
  | .cT2 => 7
  | .cDummy => 8
  | .cT3 => 9
  | .cSettle => 10

/-- The encoding of `fault_code` (R106). -/
def FaultCode.code : FaultCode → BitVec 4
  | .noFault => 0
  | .illegalRequest => 1
  | .sendNotCalibrated => 2
  | .sendBusy => 3
  | .initTwice => 4
  | .hwError => 5

/-- `STATUS[3]`: 1 if and only if `st = FAULTED` (R30). -/
def statusFault (s : State) : Bool := decide (s.st = .faulted)

/-- `STATUS[7:4]`: `fault_code`; 0 when `FAULT` is 0 (R30). -/
def statusFaultCode (s : State) : BitVec 4 := if statusFault s then s.faultCode.code else 0

/-- `STATUS[8]`: 1 if and only if `mpe` has been written since the last reset (R30). -/
def statusCalValid (s : State) : Bool := s.mpe.isWritten

/-- The `STATUS` word (R30). -/
def statusWord (s : State) : Word32 :=
  0#23 ++ BitVec.ofBool (statusCalValid s) ++ statusFaultCode s ++ BitVec.ofBool (statusFault s) ++ s.st.code

/-- What the side port shows of a register: its word, or `free` while it is unwritten. -/
def sidePort {α : Type} (v : RegVal α) (free : α) : α :=
  match v with
  | .written a => a
  | .fresh _ => free

/-- `fault_req` on the side port: any value while it is unwritten (R30, I22; log 9). -/
def faultReqPort (s : State) : Word32 := sidePort s.faultReq (Config.freeFaultReq s.draws)

/-- `hw_err` on the side port: any value while it is unwritten (R30, I22; log 9). -/
def hwErrPort (s : State) : HwErr := sidePort s.hwErr (Config.freeHwErrPort s.draws)

end Sys2Proof.Machine
end

