-- ==== Sys2Proof/Safety.lean ====
section
/-! DEFINITION. The terms claims use: a run without a fault, a finished run, the invariant of the machine, and the events a
completed `TX_INIT` and a completed `TX_SEND` emit. -/

namespace Sys2Proof.Machine

/-! ### Faults and finished runs -/

/-- "no fault recorded": `STATUS.FAULT = 0` (60_exceptions.md R109). -/
def NoFault (s : State) : Prop := statusFault s = false

/-- No Host request is waiting to be taken (R136). -/
def NoRequestWaiting (s : State) : Prop := ∀ t ∈ s.script, ∀ p, t ≠ .port p

/-- A finished run (70_reset_and_hazards.md R136). -/
structure Finished (s : State) : Prop where
  noRequest : NoRequestWaiting s
  answered : s.responses.length = s.accepted
  state : s.st = .uninit ∨ s.st = .calibrated
  phase : s.phase = .idle
  noCall : s.outstanding = none
  noAbandoned : s.abandoned = []
  noFaultCode : s.faultCode = .noFault

/-! ### Illegal words and Encoder requests, in the spec's own terms -/

/-- A request word is illegal: a reserved `op`, or `(req & mask) ≠ match` for the row of its `op` (30_encoding.md R57, with
the masks of R53 to R56). -/
def IllegalWord (w : Word32) : Prop :=
  let op := (w >>> 28).toNat
  (op = 0 ∨ (4 ≤ op ∧ op ≤ 7) ∨ 10 ≤ op)
    ∨ (op = 1 ∧ w &&& 0xFCFEFF00 ≠ 0x10000000)
    ∨ (op = 2 ∧ w &&& 0xFCFFFCFC ≠ 0x20000000)
    ∨ (op = 3 ∧ w &&& 0xFCFF0000 ≠ 0x30000000)
    ∨ (op = 8 ∧ w ≠ 0x80000000)
    ∨ (op = 9 ∧ w &&& 0xFFFF0000 ≠ 0x90000000)

/-- `ENC_SOP`, `ENC_CD` and `ENC_CP` (R5). -/
def isEncoder : Instr → Bool
  | .encSop _ _ _ => true
  | .encCd _ _ _ => true
  | .encCp _ _ _ => true
  | .txInit => false
  | .txSend _ => false
  | .frameSop _ _ _ _ => false
  | .frameCd _ _ _ _ => false
  | .frameCp _ _ _ _ => false

/-- The XOR of the four nibbles of a frame (R68). -/
def nibbleXor (f : Frame) : Nibble :=
  f.extractLsb' 12 4 ^^^ f.extractLsb' 8 4 ^^^ f.extractLsb' 4 4 ^^^ f.extractLsb' 0 4

/-! ### The invariant -/

/-- How far a calibration sub-step is along the table of R79. -/
def CalStep.pos (k : CalStep) : Nat := k.code.toNat

/-- `out_level` before the call of a calibration sub-step is made (R80, R81, R83). -/
def calLevelOk : CalStep → OutLevel → Prop
  | .cLow, l => l = .unknown
  | .cCarrier, l => l = .known .inactive
  | .cT0, l => l = .known .inactive
  | .cAct, l => l ≠ .unknown
  | .cSlp, l => l = .known .active
  | .cT1, l => l = .known .active
  | .cInact, l => l = .known .active
  | .cT2, l => l = .known .inactive
  | .cDummy, l => l = .known .inactive
  | .cT3, l => l = .known .inactive
  | .cSettle, l => l = .known .inactive

/-- `out_level` before the call of a transmission phase is made (R89). -/
def txLevel : Phase → Level
  | .idle => .inactive
  | .cal => .inactive
  | .markOn => .inactive
  | .markWait => .active
  | .spaceOn => .active
  | .spaceWait => .inactive
  | .gap => .inactive

/-- The call outstanding, if any, is the one the sequencer position names (R16, R27): the position moves at the return
(log 4). -/
def CallNamed (s : State) : Prop :=
  ∀ e, s.outstanding = some e → ∃ clock, nextCall Config.std clock s = .ok (some e)

/-- The level the outstanding call asked for is in `out_level` (R22), which is written when the call is made (log 4). -/
def LevelShown (s : State) : Prop := ∀ l, s.outstanding = some (.level l) → s.outLevel = .known l

/-- No `SetLevel` is outstanding. -/
def NoLevelCall (s : State) : Prop := ∀ l, s.outstanding ≠ some (.level l)

/-- The fault registers hold a fault exactly in `FAULTED` (R108, R111, R124). -/
structure FaultRegsOk (s : State) : Prop where
  code : s.faultCode = .noFault ↔ s.st ≠ .faulted
  req : s.faultReq.isWritten = true ↔ s.st = .faulted
  err : s.hwErr.isWritten = true ↔ s.faultCode = .hwError

/-- `UNINIT`: idle, and no register without a reset value has been written (R34). -/
structure UninitOk (s : State) : Prop where
  phase : s.phase = .idle
  noCall : s.outstanding = none
  level : s.outLevel = .unknown
  wawe : s.wawe.isWritten = false
  mpe : s.mpe.isWritten = false
  position : s.calStep.isWritten = false ∧ s.calI.isWritten = false
  clocks : s.t0.isWritten = false ∧ s.t1.isWritten = false ∧ s.t2.isWritten = false ∧ s.t3.isWritten = false
  sendRegs : s.f.isWritten = false ∧ s.ch.isWritten = false ∧ s.rep.isWritten = false ∧ s.sym.isWritten = false

/-- In every state: the registers are written in the order of R79 and R93 to R95, the efforts are those of the clock
readings (R82, R85), and `ch` is the channel of `f` (R94). -/
structure RegsOk (s : State) : Prop where
  position : s.calStep.isWritten = s.calI.isWritten
  t0 : s.t0.isWritten = true → s.calStep.isWritten = true
  t1 : s.t1.isWritten = true → s.t0.isWritten = true
  t2 : s.t2.isWritten = true → s.t1.isWritten = true
  t3 : s.t3.isWritten = true → s.t2.isWritten = true
  wawe : s.wawe.isWritten = s.t1.isWritten
  mpe : s.mpe.isWritten = s.t3.isWritten
  waweValue : ∀ a b, s.t0 = .written a → s.t1 = .written b → s.wawe = .written (waweOf Config.std a b)
  mpeValue : ∀ a b, s.t2 = .written a → s.t3 = .written b → s.mpe = .written (mpeOf Config.std a b)
  frame : s.f.isWritten = true → s.mpe.isWritten = true
  channel : s.ch.isWritten = s.f.isWritten
  channelValue : ∀ f, s.f = .written f → s.ch = .written (logicalChannel f)
  rep : s.rep.isWritten = s.f.isWritten
  sym : s.sym.isWritten = s.f.isWritten

/-- `CALIBRATING` at sub-step `k` with the loop counter at `n` (R79): with `RegsOk`, exactly the registers of the
sub-steps so far are written (`t1` with `wawe`, `t3` with `mpe`, and none of `f`, `ch`, `rep`, `sym`). -/
structure CalOk (s : State) (k : CalStep) (n : BitVec 4) : Prop where
  phase : s.phase = .cal
  step : s.calStep = .written k
  count : s.calI = .written n
  bound : n.toNat ≤ 8
  looping : k = .cAct ∨ k = .cSlp → n.toNat < 8
  t0 : s.t0.isWritten = true ↔ 3 ≤ k.pos
  wawe : s.wawe.isWritten = true ↔ 6 ≤ k.pos
  t2 : s.t2.isWritten = true ↔ 8 ≤ k.pos
  mpe : s.mpe.isWritten = true ↔ 10 ≤ k.pos
  named : CallNamed s
  level : NoLevelCall s → calLevelOk k s.outLevel
  shown : LevelShown s
  noFrame : s.f.isWritten = false

/-- `CALIBRATED`: idle, with a complete profile, and the output inactive (R23, R83, R87, R99). -/
structure CalibratedOk (s : State) : Prop where
  phase : s.phase = .idle
  noCall : s.outstanding = none
  level : s.outLevel = .known .inactive
  wawe : s.wawe.isWritten = true
  mpe : s.mpe.isWritten = true

/-- `TRANSMITTING` frame `f`, at symbol `y` of repetition `r` (R27, R92 to R97). -/
structure SendOk (s : State) (f : Frame) (r : BitVec 3) (y : BitVec 5) : Prop where
  phase : s.phase ≠ .idle ∧ s.phase ≠ .cal
  wawe : s.wawe.isWritten = true
  mpe : s.mpe.isWritten = true
  frame : s.f = .written f
  channel : s.ch = .written (logicalChannel f)
  rep : s.rep = .written r
  repBound : r.toNat < 5
  sym : s.sym = .written y
  symBound : y.toNat ≤ 17
  gapAtStop : s.phase = .gap → y = 17
  named : CallNamed s
  level : NoLevelCall s → s.outLevel = .known (txLevel s.phase)
  shown : LevelShown s

/-- `FAULTED`: quiescent (R108, R109). -/
structure FaultedOk (s : State) : Prop where
  phase : s.phase = .idle
  noCall : s.outstanding = none

/-- Every accepted request has at most one response, and the operation in flight has none yet (R45, R59, R136). -/
def AnswersOk (s : State) : Prop := s.responses.length + s.st.busy.toNat ≤ s.accepted

/-- What holds in `st` (R23). -/
def StOk (s : State) : Prop :=
  match s.st with
  | .uninit => UninitOk s
  | .calibrating => ∃ k n, CalOk s k n
  | .calibrated => CalibratedOk s
  | .transmitting => ∃ f r y, SendOk s f r y
  | .faulted => FaultedOk s

/-- The invariant of the machine: it holds at reset and every step keeps it. -/
structure Inv (s : State) : Prop where
  faultRegs : FaultRegsOk s
  regs : RegsOk s
  state : StOk s
  answers : AnswersOk s

/-- Every `Sleep` in the trace asks for 1..224000 µs (R91). -/
def SleepsBounded (trace : List Event) : Prop := ∀ d, .sleep d ∈ trace → 1 ≤ d.toNat ∧ d.toNat ≤ 224000

/-! ### The events of a completed operation, written from R78 and R95 -/

/-- The events of a completed `TX_INIT` (R78), with `CAL_END_INACTIVE` as `c` says. -/
def initEvents (c : Config) (t0 t1 t2 t3 : Word32) : List Event :=
  [.level .inactive, .carrier c.carrierPeriodTicks, .now t0]
    ++ (List.replicate c.calIter [.level .active, .sleep (BitVec.ofNat 32 c.calSleepUs)]).flatten
    ++ [.now t1]
    ++ (if c.calEndInactive then [.level .inactive] else [])
    ++ [.now t2, .now t3, .sleep (BitVec.ofNat 32 c.settleUs)]

/-- The nominal pause of symbol `k` in 0..17 (R96): START and STOP, else bit `16 − k`. -/
def nominalPause (c : Config) (f : Frame) (k : Nat) : Nat :=
  if k = 0 ∨ k = 17 then c.ssPauseUs
  else if f.getLsbD (16 - k) then c.highPauseUs else c.lowPauseUs

/-- The four events of one `pulse` (R89). -/
def pulseEvents (mark pause : Word32) : List Event :=
  [.level .active, .sleep mark, .level .inactive, .sleep pause]

/-- The pulses of the first `n` symbols of a repetition (R95). -/
def pulsesEvents (c : Config) (f : Frame) (w : BitVec 29) (m : BitVec 28) (n : Nat) : List Event :=
  (List.range n).flatMap fun k => pulseEvents (markSleep c.markUs w) (pauseSleep (nominalPause c f k) w m)

/-- The gap after repetition `r`, in microseconds, from the logical channel `n` (R97). -/
def nominalGap (c : Config) (r n : Nat) : Nat :=
  (if r < c.earlyReps then c.gapEarlySlots else c.gapLateBase + c.gapLatePerCh * n) * c.gapSlotUs

/-- The events of repetition `r`: 18 pulses and the gap (R95). -/
def repEvents (c : Config) (f : Frame) (w : BitVec 29) (m : BitVec 28) (r : Nat) : List Event :=
  pulsesEvents c f w m 18 ++ [.sleep (BitVec.ofNat 32 (nominalGap c r (1 + (f.extractLsb' 12 2).toNat)))]

/-- The events of the first `n` repetitions of a `TX_SEND` (R95, R98). -/
def sendEvents (c : Config) (f : Frame) (w : BitVec 29) (m : BitVec 28) (n : Nat) : List Event :=
  (List.range n).flatMap fun r => repEvents c f w m r

/-- The IR core with the parameters `c`; with `Config.std` it is `Sys2Proof.core`. -/
def coreUnder (c : Config) : Host.Core :=
  { State := State, Fault := Fault, Refusal := Refusal, step := stepUnder c, reset := State.reset }

/-- The Transmitter makes a call and it returns without an error, once for each clock draw. -/
def calls (clocks : List Word32) : List Turn := clocks.flatMap fun k => [.txStep k, .hwReturn none]

/-- The sum of the requested sleeps of a list of events, in microseconds (R104). -/
def sleepSum : List Event → Nat
  | [] => 0
  | .sleep d :: es => d.toNat + sleepSum es
  | .level _ :: es => sleepSum es
  | .carrier _ :: es => sleepSum es
  | .now _ :: es => sleepSum es

/-- The event is a `Sleep`. -/
def Event.isSleep : Event → Bool
  | .sleep _ => true
  | .level _ => false
  | .carrier _ => false
  | .now _ => false

/-- How many bits of a frame are 1. -/
def onesOf (f : Frame) : Nat := ((List.range 16).filter fun k => f.getLsbD k).length

end Sys2Proof.Machine
end

