-- ==== Sys2Proof/Certificates/Slice0/Obligations.lean ====
section
/-! DEFINITION. The statements about the IR core, from the numbered rules of spec/. `accepted`, `script` and `draws` are the
model's own fields (log 1, log 2, log 6). -/

open Sys2Proof Sys2Proof.Machine

/-! ### The Encoder -/

/-- R65: the table of `pfc`, for every integer, and "Every code except `0b0000` and `0b1000` is reached by exactly one v in
−7..7". -/
def Obligations.PfcFollowsItsTable : Prop :=
  (∀ v : Int,
    (1 ≤ v ∧ v ≤ 7 → ((pfc v).toNat : Int) = v) ∧
    (v = 0 → pfc v = 0b1000) ∧
    (-7 ≤ v ∧ v ≤ -1 → ((pfc v).toNat : Int) = 16 + v) ∧
    (v < -7 ∨ 7 < v → pfc v = 0b0000)) ∧
  (∀ k : Nibble, k ≠ 0b0000 → k ≠ 0b1000 → ∃! v : Int, (-7 ≤ v ∧ v ≤ 7) ∧ pfc v = k)

/-- R66: `packFrame` is `(n1 << 12) | (n2 << 8) | (n3 << 4) | lrc` with `lrc = 0xF xor n1 xor n2 xor n3`. -/
def Obligations.PackFrameIsTheFormula : Prop :=
  ∀ n1 n2 n3 : Nibble,
    packFrame n1 n2 n3 =
      (n1.setWidth 16 <<< 12) ||| (n2.setWidth 16 <<< 8) ||| (n3.setWidth 16 <<< 4)
        ||| (0xF ^^^ n1 ^^^ n2 ^^^ n3).setWidth 16

/-- R68: the four nibbles of a packed frame XOR to `0xF`, and a frame whose nibbles XOR to another value is not packed. -/
def Obligations.PackedNibblesXorToF : Prop :=
  (∀ n1 n2 n3 : Nibble, nibbleXor (packFrame n1 n2 n3) = 0xF ∧ 0xF ^^^ nibbleXor (packFrame n1 n2 n3) = 0) ∧
  (∀ fr : Frame, nibbleXor fr ≠ 0xF → ∀ n1 n2 n3 : Nibble, packFrame n1 n2 n3 ≠ fr)

/-- R69, R107: `ENC_SOP` completes in every state but `FAULTED`, with `n1 = ch`, `n2 = 4 + out`, `n3 = pfc(speed)`; in
`FAULTED` it is not taken. -/
def Obligations.EncSopAnswersItsFrame : Prop :=
  ∀ (ch : BitVec 2) (out : Output) (speed : Int) (s : State),
    (s.st ≠ .faulted →
      exec (.encSop ch out speed) s = .next { s with
        accepted := s.accepted + 1
        responses := s.responses ++
          [(packFrame (BitVec.ofNat 4 ch.toNat) (BitVec.ofNat 4 (4 + out.code.toNat)) (pfc speed)).setWidth 32] }) ∧
    (s.st = .faulted → exec (.encSop ch out speed) s = .next s)

/-- R70, R107: `ENC_CD` completes in every state but `FAULTED`, with `n1 = ch`, `n2 = 0b0001`, `n3 = (cmdB << 2) | cmdR`. -/
def Obligations.EncCdAnswersItsFrame : Prop :=
  ∀ (ch : BitVec 2) (cmdR cmdB : Command) (s : State),
    (s.st ≠ .faulted →
      exec (.encCd ch cmdR cmdB) s = .next { s with
        accepted := s.accepted + 1
        responses := s.responses ++
          [(packFrame (BitVec.ofNat 4 ch.toNat) 0b0001
            (BitVec.ofNat 4 (4 * cmdB.code.toNat + cmdR.code.toNat))).setWidth 32] }) ∧
    (s.st = .faulted → exec (.encCd ch cmdR cmdB) s = .next s)

/-- R71, R107: `ENC_CP` completes in every state but `FAULTED`, with `n1 = 4 + ch`, `n2 = pfc(spdB)`, `n3 = pfc(spdR)`. -/
def Obligations.EncCpAnswersItsFrame : Prop :=
  ∀ (ch : BitVec 2) (spdR spdB : Int) (s : State),
    (s.st ≠ .faulted →
      exec (.encCp ch spdR spdB) s = .next { s with
        accepted := s.accepted + 1
        responses := s.responses ++
          [(packFrame (BitVec.ofNat 4 (4 + ch.toNat)) (pfc spdB) (pfc spdR)).setWidth 32] }) ∧
    (s.st = .faulted → exec (.encCp ch spdR spdB) s = .next s)

/-- R73: the same Encoder request yields the same response in any two states that take it, and no Encoder request changes
anything but the record of requests and responses. -/
def Obligations.EncoderIsPureAndDeterministic : Prop :=
  ∀ i : Instr, isEncoder i = true →
    (∀ s t : State, exec i s = .next t → t = { s with accepted := t.accepted, responses := t.responses }) ∧
    (∃ resp : Word32, ∀ s : State, s.st ≠ .faulted →
      ∃ t, exec i s = .next t ∧ t.responses = s.responses ++ [resp])

/-- R61 with R60: the variants' sets are disjoint; every frame an Encoder request answers is in the set of its variant,
carries the channel index in bits 13:12 and the LRC in its low nibble; and `TX_SEND` accepts every 16-bit value unchanged. -/
def Obligations.FramesAreToldApartByFixedBits : Prop :=
  (∀ fr : Frame,
    ¬(fr &&& 0xCE00 = 0x0400 ∧ fr &&& 0xCF00 = 0x0100) ∧
    ¬(fr &&& 0xCE00 = 0x0400 ∧ fr &&& 0xC000 = 0x4000) ∧
    ¬(fr &&& 0xCF00 = 0x0100 ∧ fr &&& 0xC000 = 0x4000)) ∧
  (∀ (ch : BitVec 2) (out : Output) (v : Int) (s t : State), s.st ≠ .faulted →
    exec (.encSop ch out v) s = .next t →
    ∃ fr : Frame, t.responses = s.responses ++ [fr.setWidth 32] ∧ fr &&& 0xCE00 = 0x0400 ∧
      fr.extractLsb' 12 2 = ch ∧ nibbleXor fr = 0xF) ∧
  (∀ (ch : BitVec 2) (cmdR cmdB : Command) (s t : State), s.st ≠ .faulted →
    exec (.encCd ch cmdR cmdB) s = .next t →
    ∃ fr : Frame, t.responses = s.responses ++ [fr.setWidth 32] ∧ fr &&& 0xCF00 = 0x0100 ∧
      fr.extractLsb' 12 2 = ch ∧ nibbleXor fr = 0xF) ∧
  (∀ (ch : BitVec 2) (vR vB : Int) (s t : State), s.st ≠ .faulted →
    exec (.encCp ch vR vB) s = .next t →
    ∃ fr : Frame, t.responses = s.responses ++ [fr.setWidth 32] ∧ fr &&& 0xC000 = 0x4000 ∧
      fr.extractLsb' 12 2 = ch ∧ nibbleXor fr = 0xF) ∧
  (∀ (fr : Frame) (s : State), s.st = .calibrated → ∃ t, exec (.txSend fr) s = .next t ∧ t.f = .written fr)

/-! ### Encodings -/

/-- R57: a request word is illegal exactly when its `op` is reserved or a must-be-zero bit is 1, and it then raises
`ILLEGAL_REQUEST` in every state that takes requests. -/
def Obligations.IllegalWordsRaiseIllegalRequest : Prop :=
  ∀ w : Word32,
    ((∃ e, decodeRequest w = .error e) ↔ IllegalWord w) ∧
    (∀ (s : State) (rest : List Turn), s.script = .port w :: rest → s.st ≠ .faulted → IllegalWord w →
      ∃ t, step s = .next t ∧ t.st = .faulted ∧ t.faultCode = .illegalRequest ∧ t.faultReq = .written w)

/-- R58: the operands of a legal request word. -/
def Obligations.OperandsDecodeFromTheirFields : Prop :=
  ∀ w : Word32, ¬IllegalWord w →
    ((w >>> 28).toNat = 1 → decodeRequest w = .ok (.encSop (w.extractLsb' 24 2)
      (if w.getLsbD 16 then .blue else .red) (w.extractLsb' 0 8).toInt)) ∧
    ((w >>> 28).toNat = 2 → ∃ r b, decodeRequest w = .ok (.encCd (w.extractLsb' 24 2) r b) ∧
      r.code = w.extractLsb' 8 2 ∧ b.code = w.extractLsb' 0 2) ∧
    ((w >>> 28).toNat = 3 → decodeRequest w = .ok (.encCp (w.extractLsb' 24 2)
      (w.extractLsb' 8 8).toInt (w.extractLsb' 0 8).toInt)) ∧
    ((w >>> 28).toNat = 8 → decodeRequest w = .ok .txInit) ∧
    ((w >>> 28).toNat = 9 → decodeRequest w = .ok (.txSend (w.extractLsb' 0 16)))

/-- Decoding the encoding of a well-formed instruction gives it back, for every instruction and every operand value the
encodings of R53 to R56 and R60 admit. -/
def Obligations.DecodeOfEncodeIsTheInstruction : Prop :=
  ∀ i : Instr, i.WellFormed → decode (encode i) = .ok i

/-- What the decoder reads from a request word is well-formed and encodes to that word; what it reads from a frame is
well-formed and encodes to that frame where the frame is of a variant of R61, and is the `TX_SEND` of it where the frame is
of none (log 7, the model's choice). -/
def Obligations.EncodeOfDecodeIsTheWord : Prop :=
  (∀ (w : Word32) (i : Instr), decode (.request w) = .ok i → i.WellFormed ∧ encode i = .request w) ∧
  (∀ (fr : Frame) (i : Instr), decode (.frame fr) = .ok i →
    i.WellFormed ∧
    (fr &&& 0xCE00 = 0x0400 ∨ fr &&& 0xCF00 = 0x0100 ∨ fr &&& 0xC000 = 0x4000 → encode i = .frame fr) ∧
    (¬(fr &&& 0xCE00 = 0x0400 ∨ fr &&& 0xCF00 = 0x0100 ∨ fr &&& 0xC000 = 0x4000) →
      i = .txSend fr ∧ encode i = .request (sendWord fr)))

/-- R64: the request word of each textual form, by the formulas of the table of R64. -/
def Obligations.RequestWordsAreTheFormulas : Prop :=
  (∀ (ch : BitVec 2) (out : Output) (v : Int),
    encode (.encSop ch out v) =
      .request (0x10000000 ||| BitVec.ofNat 32 (ch.toNat * 2 ^ 24 + out.code.toNat * 2 ^ 16) |||
        (BitVec.ofInt 32 v &&& 0xFF))) ∧
  (∀ (ch : BitVec 2) (r b : Command),
    encode (.encCd ch r b) =
      .request (0x20000000 ||| BitVec.ofNat 32 (ch.toNat * 2 ^ 24 + r.code.toNat * 2 ^ 8 + b.code.toNat))) ∧
  (∀ (ch : BitVec 2) (vR vB : Int),
    encode (.encCp ch vR vB) =
      .request (0x30000000 ||| BitVec.ofNat 32 (ch.toNat * 2 ^ 24) |||
        ((BitVec.ofInt 32 vR &&& 0xFF) <<< 8) ||| (BitVec.ofInt 32 vB &&& 0xFF))) ∧
  encode .txInit = .request 0x80000000 ∧
  (∀ fr : Frame, encode (.txSend fr) = .request (0x90000000 ||| fr.setWidth 32))

/-- Sample words of every row, written out from the layouts of R53 to R56 and R60. -/
def Obligations.SampleWordsDecode : Prop :=
  decodeTableWord 32 0b00010011000000010000000010000000 = some (.encSop 3 .blue (-128)) ∧
  decodeTableWord 32 0b00100010000000000000001100000001 = some (.encCd 2 .brake .forward) ∧
  decodeTableWord 32 0b00110011000000001111110100001001 = some (.encCp 3 (-3) 9) ∧
  decodeTableWord 32 0b10000000000000000000000000000000 = some .txInit ∧
  decodeTableWord 32 0b10010000000000000000010001111100 = some (.txSend 0x047C) ∧
  decodeTableWord 16 0b0011010101111110 = some (.frameSop 3 .blue 7 14) ∧
  decodeTableWord 16 0b0000000110010111 = some (.frameCd 0 .backward .forward 7) ∧
  decodeTableWord 16 0b0111000011010101 = some (.frameCp 3 0 13 5) ∧
  decodeTableWord 32 0b00010000000000000000000100000000 = none

/-- R51: the operation of a request word is selected by `op = req[31:28]` alone, for every word the decoder takes; no
request word decodes to a frame row. -/
def Obligations.OpSelectsTheOperation : Prop :=
  ∀ (w : Word32) (i : Instr), decodeRequest w = .ok i →
    match i with
    | .encSop _ _ _ => (w >>> 28).toNat = 1
    | .encCd _ _ _ => (w >>> 28).toNat = 2
    | .encCp _ _ _ => (w >>> 28).toNat = 3
    | .txInit => (w >>> 28).toNat = 8
    | .txSend _ => (w >>> 28).toNat = 9
    | .frameSop _ _ _ _ => False
    | .frameCd _ _ _ _ => False
    | .frameCp _ _ _ _ => False

/-- A step whose next event is a request word that decodes to `i` is `exec i`, in the state in which the event has been
taken off the script. A frame crosses the port in bits 15:0 of a `TX_SEND` word (R39, R118), and the step that takes that
word is `exec` of the frame row's instruction (log 7, the model's choice). -/
def Obligations.StepRunsTheDecodedInstruction : Prop :=
  ∀ (s : State) (rest : List Turn) (i : Instr),
    (∀ w : Word32, s.script = .port w :: rest → decodeRequest w = .ok i → step s = exec i { s with script := rest }) ∧
    (∀ fr : Frame, s.script = .port (0x90000000 ||| fr.setWidth 32) :: rest → decode (.frame fr) = .ok i →
      step s = exec i { s with script := rest })

/-- `withFetchWord` puts a table row's word where the very next step takes it. -/
def Obligations.FetchedWordRunsNext : Prop :=
  ∀ (s : State) (nbits w : Nat) (i : Instr), decodeTableWord nbits w = some i →
    step (s.withFetchWord nbits w) = exec i s

/-! ### Requests in each state -/

/-- R75 (acceptance): `TX_INIT` completes in `UNINIT`: the sequencer stands at `C_LOW`, and nothing else changes. -/
def Obligations.TxInitIsAcceptedInUninit : Prop :=
  ∀ s : State, s.st = .uninit →
    exec .txInit s = .next { s with
      st := .calibrating, phase := .cal, calStep := .written .cLow, calI := .written 0, accepted := s.accepted + 1 }

/-- R92 to R95 (acceptance): `TX_SEND` completes in `CALIBRATED`, for every frame: the frame is latched, `ch` is
`1 + f[13:12]`, the sequencer stands at the first mark, and nothing else changes. -/
def Obligations.TxSendIsAcceptedInCalibrated : Prop :=
  ∀ (fr : Frame) (s : State), s.st = .calibrated →
    exec (.txSend fr) s = .next { s with
      st := .transmitting, phase := .markOn, f := .written fr,
      ch := .written (BitVec.ofNat 3 (1 + (fr.extractLsb' 12 2).toNat)),
      rep := .written 0, sym := .written 0, accepted := s.accepted + 1 }

/-- The frame rows (R60, R118; log 7, the model's choice): a frame of each variant completes in `CALIBRATED` as the
`TX_SEND` of its 16 bits, whatever its low nibbles are. -/
def Obligations.FrameRowsAreSentInCalibrated : Prop :=
  ∀ (ch : BitVec 2) (out : Output) (b r : Command) (n2 n3 lrc : Nibble) (s : State), s.st = .calibrated →
    (exec (.frameSop ch out n3 lrc) s = .next { s with
      st := .transmitting, phase := .markOn, f := .written (0b00#2 ++ ch ++ 0b010#3 ++ out.code ++ n3 ++ lrc),
      ch := .written (BitVec.ofNat 3 (1 + ch.toNat)), rep := .written 0, sym := .written 0, accepted := s.accepted + 1 }) ∧
    (exec (.frameCd ch b r lrc) s = .next { s with
      st := .transmitting, phase := .markOn, f := .written (0b00#2 ++ ch ++ 0b0001#4 ++ b.code ++ r.code ++ lrc),
      ch := .written (BitVec.ofNat 3 (1 + ch.toNat)), rep := .written 0, sym := .written 0, accepted := s.accepted + 1 }) ∧
    (exec (.frameCp ch n2 n3 lrc) s = .next { s with
      st := .transmitting, phase := .markOn, f := .written (0b01#2 ++ ch ++ n2 ++ n3 ++ lrc),
      ch := .written (BitVec.ofNat 3 (1 + ch.toNat)), rep := .written 0, sym := .written 0, accepted := s.accepted + 1 })

/-- In every state a frame row does what `TX_SEND` of that frame does (log 7, the model's choice). -/
def Obligations.FrameRowsFaultAsTheirTxSend : Prop :=
  ∀ (ch : BitVec 2) (out : Output) (b r : Command) (n2 n3 lrc : Nibble) (s : State),
    exec (.frameSop ch out n3 lrc) s = exec (.txSend (0b00#2 ++ ch ++ 0b010#3 ++ out.code ++ n3 ++ lrc)) s ∧
    exec (.frameCd ch b r lrc) s = exec (.txSend (0b00#2 ++ ch ++ 0b0001#4 ++ b.code ++ r.code ++ lrc)) s ∧
    exec (.frameCp ch n2 n3 lrc) s = exec (.txSend (0b01#2 ++ ch ++ n2 ++ n3 ++ lrc)) s

/-- R107: the outcome of each request word in each state. -/
def Obligations.RequestOutcomePerState : Prop :=
  ∀ (s : State) (w : Word32) (rest : List Turn), s.script = .port w :: rest →
    ∃ t, step s = .next t ∧
      (s.st = .faulted → t = { s with script := rest }) ∧
      (s.st ≠ .faulted → IllegalWord w → t.st = .faulted ∧ t.faultCode = .illegalRequest ∧ t.faultReq = .written w) ∧
      (s.st ≠ .faulted → ¬IllegalWord w → (w >>> 28).toNat ≤ 3 →
        t.st = s.st ∧ ∃ resp, t.responses = s.responses ++ [resp]) ∧
      (¬IllegalWord w → (w >>> 28).toNat = 8 → s.st = .uninit → t.st = .calibrating) ∧
      (¬IllegalWord w → (w >>> 28).toNat = 8 → s.st ≠ .uninit → s.st ≠ .faulted →
        t.st = .faulted ∧ t.faultCode = .initTwice ∧ t.faultReq = .written w) ∧
      (¬IllegalWord w → (w >>> 28).toNat = 9 → s.st = .uninit ∨ s.st = .calibrating →
        t.st = .faulted ∧ t.faultCode = .sendNotCalibrated ∧ t.faultReq = .written w) ∧
      (¬IllegalWord w → (w >>> 28).toNat = 9 → s.st = .calibrated → t.st = .transmitting) ∧
      (¬IllegalWord w → (w >>> 28).toNat = 9 → s.st = .transmitting →
        t.st = .faulted ∧ t.faultCode = .sendBusy ∧ t.faultReq = .written w)

/-! ### Faults and reset -/

/-- R108 and R110: a step that takes a fault writes the fault registers, goes idle, emits nothing, answers nothing, accepts
nothing, and changes no other register; `out_level` too keeps its value, but after a failed `SetLevel`, where it is open
(I4; log 8). A request's fault is charged to its word and abandons a call still outstanding (log 5); a call's error is
charged to the operation in flight. -/
def Obligations.FaultEntryIsPrecise : Prop :=
  ∀ s t : State, s.st ≠ .faulted → step s = .next t → t.st = .faulted →
    t.phase = .idle ∧ t.outstanding = none ∧ t.trace = s.trace ∧ t.responses = s.responses ∧
    t.wawe = s.wawe ∧ t.mpe = s.mpe ∧ t.calStep = s.calStep ∧ t.calI = s.calI ∧
    t.t0 = s.t0 ∧ t.t1 = s.t1 ∧ t.t2 = s.t2 ∧ t.t3 = s.t3 ∧
    t.f = s.f ∧ t.ch = s.ch ∧ t.rep = s.rep ∧ t.sym = s.sym ∧ t.accepted = s.accepted ∧
    ((∃ w rest, s.script = .port w :: rest ∧ t.script = rest ∧ t.faultReq = .written w ∧
        t.outLevel = s.outLevel ∧ t.hwErr = s.hwErr ∧
        t.abandoned = s.abandoned ++ s.outstanding.toList ∧ t.draws = s.draws ∧
        (t.faultCode = .illegalRequest ∨ t.faultCode = .sendNotCalibrated ∨ t.faultCode = .sendBusy ∨
          t.faultCode = .initTwice)) ∨
     (t.faultCode = .hwError ∧ t.hwErr.isWritten = true ∧ t.script = s.script.tail ∧ t.abandoned = s.abandoned ∧
        (∃ e, s.outstanding = some e ∧ ((∀ l, e ≠ .level l) → t.outLevel = s.outLevel)) ∧
        ((s.st = .calibrating ∧ t.faultReq = .written 0x80000000) ∨
         (s.st = .transmitting ∧ ∃ fr : Frame, s.f = .written fr ∧ t.faultReq = .written (0x90000000 ||| fr.setWidth 32)))))

/-- R111: a call that reports an error latches the value unmodified, raises `HW_ERROR`, and is not retried: nothing is
outstanding and no event is added. -/
def Obligations.HwErrorIsLatchedUnmodified : Prop :=
  ∀ (s : State) (e : Event) (x : HwErr) (rest : List Turn),
    s.script = .hwReturn (some x) :: rest → s.outstanding = some e →
    (s.st = .calibrating ∨ (s.st = .transmitting ∧ s.f.isWritten = true)) →
    ∃ t, step s = .next t ∧ t.st = .faulted ∧ t.phase = .idle ∧ t.faultCode = .hwError ∧ t.hwErr = .written x ∧
      t.outstanding = none ∧ t.trace = s.trace ∧ t.abandoned = s.abandoned

/-- R109: in `FAULTED` nothing is taken. Every step but a reset leaves everything as it is but the script and the list of
abandoned calls (and no step stops). -/
def Obligations.FaultedIsQuiescent : Prop :=
  ∀ s : State, s.st = .faulted → s.outstanding = none → (∀ rest, s.script ≠ .reset :: rest) →
    ∃ t, step s = .next t ∧ t = { s with script := s.script.tail, abandoned := t.abandoned }

/-- R124: only reset leaves `FAULTED`, and only reset clears `fault_code`, `fault_req` and the calibration profile; after it
there is no profile (the efforts are unwritten) and `st` is `UNINIT`. -/
def Obligations.OnlyResetLeavesFaulted : Prop :=
  ∀ s t : State, step s = .next t →
    ((s.st = .faulted ∧ t.st ≠ .faulted) ∨ (s.faultCode ≠ .noFault ∧ t.faultCode = .noFault) ∨
      (s.faultReq.isWritten = true ∧ t.faultReq.isWritten = false) ∨
      (s.wawe.isWritten = true ∧ t.wawe.isWritten = false) ∨ (s.mpe.isWritten = true ∧ t.mpe.isWritten = false)) →
    (∃ rest, s.script = .reset :: rest) ∧ t.st = .uninit ∧ t.wawe.isWritten = false ∧
      t.mpe.isWritten = false

/-- R123: reset, in any state: every register at its reset value, `STATUS = 0`, no event, no response; a call still
outstanding is the collaborator's to finish, and its return is ignored. What `State.reset` holds in the registers that R34
leaves without a value (unwritten, 0) is log 3 (DESIGN CHOICE), and what a reset event keeps is log 5 (DEDUCED) and log 6
(DESIGN CHOICE), the model's choices. -/
def Obligations.ResetInAnyState : Prop :=
  ∀ (s : State) (rest : List Turn), s.script = .reset :: rest →
    ∃ t, step s = .next t ∧ statusWord t = 0 ∧
      t = { State.reset with
        trace := s.trace, responses := s.responses, accepted := s.accepted, script := rest, draws := s.draws,
        abandoned := s.abandoned ++ s.outstanding.toList } ∧
      (∀ later, rest = .lateReturn :: later →
        step t = .next { t with script := later, abandoned := t.abandoned.tail }) ∧
      (∀ err later, rest = .hwReturn err :: later → step t = .next { t with script := later })

/-- R123 (a Sleep outstanding at reset): the return of an abandoned call, and a return with no call outstanding, change
nothing but the script and the record of abandoned calls. That the record is a list whose oldest entry the return takes off
(`abandoned := s.abandoned.tail`), and that a call abandoned by a fault is treated as one abandoned by a reset, is log 5
(DEDUCED), the model's reading. -/
def Obligations.LateReturnsAreIgnored : Prop :=
  ∀ (s : State) (rest : List Turn),
    (s.script = .lateReturn :: rest → step s = .next { s with script := rest, abandoned := s.abandoned.tail }) ∧
    (∀ err, s.script = .hwReturn err :: rest → s.outstanding = none → step s = .next { s with script := rest })

/-- R34: the reset values. Every other register is without a value of the spec's: unwritten, so that reading it faults (R28,
`UnwrittenRegisterReadFaults`), whatever its field holds. `STATUS` reads 0 (R30). -/
def Obligations.ResetValues : Prop :=
  State.reset.st = .uninit ∧ State.reset.phase = .idle ∧ State.reset.faultCode = .noFault ∧
  State.reset.outLevel = .unknown ∧
  State.reset.wawe.isWritten = false ∧ State.reset.mpe.isWritten = false ∧
  State.reset.calStep.isWritten = false ∧ State.reset.calI.isWritten = false ∧
  State.reset.t0.isWritten = false ∧ State.reset.t1.isWritten = false ∧
  State.reset.t2.isWritten = false ∧ State.reset.t3.isWritten = false ∧
  State.reset.f.isWritten = false ∧ State.reset.ch.isWritten = false ∧
  State.reset.rep.isWritten = false ∧ State.reset.sym.isWritten = false ∧
  State.reset.faultReq.isWritten = false ∧ State.reset.hwErr.isWritten = false ∧
  State.reset.outstanding = none ∧ State.reset.trace = [] ∧ statusWord State.reset = 0

/-- R30: the fields of `STATUS`, with the fault codes 0 to 5 of R106, its reset value, that the efforts cannot be read from
it, and the two words of the side port where they have been written. -/
def Obligations.StatusWordFields : Prop :=
  ∀ s : State,
    (statusWord s).extractLsb' 0 3 = s.st.code ∧
    ((statusWord s).getLsbD 3 = true ↔ s.st = .faulted) ∧
    (s.st = .faulted → (statusWord s).extractLsb' 4 4 = s.faultCode.code) ∧
    (s.st ≠ .faulted → (statusWord s).extractLsb' 4 4 = 0) ∧
    ((statusWord s).getLsbD 8 = true ↔ s.mpe.isWritten = true) ∧
    (statusWord s).extractLsb' 9 23 = 0 ∧
    statusWord State.reset = 0 ∧
    (FaultCode.noFault.code = 0 ∧ FaultCode.illegalRequest.code = 1 ∧ FaultCode.sendNotCalibrated.code = 2 ∧
      FaultCode.sendBusy.code = 3 ∧ FaultCode.initTwice.code = 4 ∧ FaultCode.hwError.code = 5) ∧
    (∀ w m m', s.mpe = .written m → statusWord { s with wawe := w, mpe := .written m' } = statusWord s) ∧
    (∀ w, s.faultReq = .written w → faultReqPort s = w) ∧
    (∀ e, s.hwErr = .written e → hwErrPort s = e)

/-- R112 (log 1): a `TX_SEND` and the end of the last gap's sleep at the same moment. Taken after the return it is
accepted; taken before it, it raises `SEND_BUSY`, and the return then changes nothing (log 5, DEDUCED). That the position moves
at the return is log 4 (DEDUCED). -/
def Obligations.SimultaneousEventsTakeEitherOrder : Prop :=
  ∀ (s : State) (fr : Frame) (e : Event) (r : BitVec 3) (rest : List Turn),
    s.st = .transmitting → s.phase = .gap → s.outstanding = some e → s.rep = .written r → r.toNat = 4 →
    (s.script = .hwReturn none :: .port (sendWord fr) :: rest →
      ∃ t, Sys2Proof.core.run 2 s = .next t ∧ t.st = .transmitting ∧ t.f = .written fr ∧
        t.responses = s.responses ++ [0] ∧ t.script = rest) ∧
    (s.script = .port (sendWord fr) :: .hwReturn none :: rest →
      ∃ t, Sys2Proof.core.run 2 s = .next t ∧ t.st = .faulted ∧ t.faultCode = .sendBusy ∧
        t.faultReq = .written (sendWord fr) ∧ t.responses = s.responses ∧ t.trace = s.trace ∧ t.script = rest)

/-! ### Whole-machine rules -/

/-- R23: the encodings of `st`, and no transition of `st` but the allowed ones. -/
def Obligations.OnlyAllowedTransitions : Prop :=
  (St.uninit.code = 0 ∧ St.calibrating.code = 1 ∧ St.calibrated.code = 2 ∧ St.transmitting.code = 3 ∧
    St.faulted.code = 4) ∧
  (∀ s t : State, step s = .next t → s.st ≠ t.st →
    (s.st = .uninit ∧ t.st = .calibrating) ∨ (s.st = .calibrating ∧ t.st = .calibrated) ∨
    (s.st = .calibrated ∧ t.st = .transmitting) ∨ (s.st = .transmitting ∧ t.st = .calibrated) ∨
    t.st = .faulted ∨ (t.st = .uninit ∧ ∃ rest, s.script = .reset :: rest))

/-- R26: once `st` has reached `CALIBRATED`, nothing writes `wawe` or `mpe` until reset; a second `TX_INIT` faults. -/
def Obligations.ProfileIsFixedOnceCalibrated : Prop :=
  (∀ s t : State, (s.st = .calibrated ∨ s.st = .transmitting ∨ s.st = .faulted) →
    (∀ rest, s.script ≠ .reset :: rest) → step s = .next t →
    t.wawe = s.wawe ∧ t.mpe = s.mpe ∧ (t.st = .calibrated ∨ t.st = .transmitting ∨ t.st = .faulted)) ∧
  (∀ s : State, (s.st = .calibrated ∨ s.st = .transmitting) →
    ∃ t, exec .txInit s = .next t ∧ t.st = .faulted ∧ t.faultCode = .initTwice)

/-- R101 and R102: an accepted `TX_SEND` is not cancelled or changed by anything but a fault or a reset: while it goes on,
its frame, channel and profile stay. That it completes at the return of the last gap is log 4 (DEDUCED). -/
def Obligations.TransmissionIsNotDisturbed : Prop :=
  ∀ s t : State, s.st = .transmitting → step s = .next t →
    (t.st = .transmitting ∧ t.f = s.f ∧ t.ch = s.ch ∧ t.wawe = s.wawe ∧ t.mpe = s.mpe) ∨
    (t.st = .calibrated ∧ s.phase = .gap ∧ (∃ r, s.rep = .written r ∧ 4 ≤ r.toNat) ∧ t.responses = s.responses ++ [0]) ∨
    t.st = .faulted ∨ (t.st = .uninit ∧ ∃ rest, s.script = .reset :: rest)

/-- R44 with R16 and R19: a step adds at most one event, at the end of the trace; it adds one only where no call was
outstanding, and that call is then outstanding; no step removes an event. Three points are the model's own and no rule's:
that a reset step keeps the trace is log 6 (DESIGN CHOICE); that a call is outstanding from the step that makes it, which adds
its event, to its return is log 4 (DEDUCED); and that a call abandoned by a fault or a reset no longer counts as outstanding
is log 5 (DEDUCED). -/
def Obligations.TraceIsATotalOrderOfCalls : Prop :=
  ∀ s t : State, step s = .next t →
    t.trace = s.trace ∨ ∃ e, t.trace = s.trace ++ [e] ∧ s.outstanding = none ∧ t.outstanding = some e

/-- R16: while a call is outstanding the Transmitter is blocked. -/
def Obligations.TransmitterBlocksOnItsCall : Prop :=
  ∀ (s : State) (e : Event) (clock : Word32) (rest : List Turn),
    s.script = .txStep clock :: rest → s.outstanding = some e → step s = .next { s with script := rest }

/-- R116: the clock is read, and the carrier configured, in `TX_INIT` only: at `C_T0`, `C_T1`, `C_T2`, `C_T3` and at
`C_CARRIER`. That the event joins the trace when the call is made is log 4 (DEDUCED). -/
def Obligations.ClockIsReadInCalibrationOnly : Prop :=
  ∀ (s t : State) (e : Event), step s = .next t → t.trace = s.trace ++ [e] →
    (∀ k, e = .now k → s.st = .calibrating ∧
      (s.calStep = .written .cT0 ∨ s.calStep = .written .cT1 ∨ s.calStep = .written .cT2 ∨ s.calStep = .written .cT3)) ∧
    (∀ p, e = .carrier p → s.st = .calibrating ∧ s.calStep = .written .cCarrier ∧ p = 26)

/-- R46: an Encoder request and a move of the Transmitter may be taken in either order, with the same result: a Transmitter
step, and the return without an error at which the Transmitter's registers are written (log 4). Where that return completes
an operation, the completion and the answer are given in the order taken, and nothing else differs. -/
def Obligations.EncoderAndTransmitterCommute : Prop :=
  (∀ (i : Instr) (s t u : State) (clock : Word32), isEncoder i = true →
    txStep Config.std clock s = .next t → exec i s = .next u →
    ∃ v, exec i t = .next v ∧ txStep Config.std clock u = .next v) ∧
  (∀ (i : Instr) (s t u : State), isEncoder i = true →
    hwReturn Config.std none s = .next t → exec i s = .next u →
    (t.st = s.st → ∃ v, exec i t = .next v ∧ hwReturn Config.std none u = .next v) ∧
    (t.st ≠ s.st → ∃ v v' resp, exec i t = .next v ∧ hwReturn Config.std none u = .next v' ∧
      v.responses = s.responses ++ [0, resp] ∧ v'.responses = s.responses ++ [resp, 0] ∧
      v' = { v with responses := v'.responses }))

/-! ### The Transmitter -/

/-- R82, R85 and R88: both efforts over the integers, and their bounds; no bit is lost in the registers. -/
def Obligations.EffortsAreTheQuotients : Prop :=
  ∀ a b : Word32,
    ((waweOf Config.std a b).toNat : Int) = (((b.toNat : Int) - a.toNat) % 2 ^ 32) / 8 ∧
    ((mpeOf Config.std a b).toNat : Int) = (((b.toNat : Int) - a.toNat) % 2 ^ 32) / 16 ∧
    (waweOf Config.std a b).toNat ≤ 2 ^ 29 - 1 ∧ (mpeOf Config.std a b).toNat ≤ 2 ^ 28 - 1

/-- R90: the compensated sleeps, over the integers; R131: with the clamp at 1. -/
def Obligations.SleepsAreCompensatedAndClamped : Prop :=
  ∀ (m p : Nat) (w : BitVec 29) (e : BitVec 28), m < 2 ^ 32 → p < 2 ^ 32 →
    ((markSleep m w).toNat : Int) = max 1 ((m : Int) - w.toNat) ∧
    ((pauseSleep p w e).toNat : Int) = max 1 ((p : Int) - w.toNat - e.toNat)

/-- R96: the pause of every symbol; symbol 1 carries `f[15]` and symbol 16 carries `f[0]`. -/
def Obligations.SymbolsCarryTheFrameBits : Prop :=
  ∀ (fr : Frame) (y : BitVec 5),
    (y.toNat = 0 → pauseOf Config.std y fr = some 1026) ∧
    (1 ≤ y.toNat ∧ y.toNat ≤ 16 →
      pauseOf Config.std y fr = some (if fr.getLsbD (16 - y.toNat) then 553 else 263)) ∧
    (y.toNat = 17 → pauseOf Config.std y fr = some 1026) ∧
    pauseOf Config.std 1 fr = some (if fr.getLsbD 15 then 553 else 263) ∧
    pauseOf Config.std 16 fr = some (if fr.getLsbD 0 then 553 else 263)

/-- R97 and R103: the gap after each repetition, for each logical channel, and the total gap time per channel. -/
def Obligations.GapsPerChannel : Prop :=
  (∀ n : BitVec 3, 1 ≤ n.toNat → n.toNat ≤ 4 →
    (gap Config.std 0 n).toNat + (gap Config.std 1 n).toNat + (gap Config.std 2 n).toNat + (gap Config.std 3 n).toNat
      + (gap Config.std 4 n).toNat = 448000 + 96000 * n.toNat) ∧
  ∀ (r n : BitVec 3),
    (r.toNat < 2 → (gap Config.std r n).toNat = 80000) ∧
    (2 ≤ r.toNat → (gap Config.std r n).toNat = (6 + 2 * n.toNat) * 16000) ∧
    (2 ≤ r.toNat → n.toNat = 1 → (gap Config.std r n).toNat = 128000) ∧
    (2 ≤ r.toNat → n.toNat = 2 → (gap Config.std r n).toNat = 160000) ∧
    (2 ≤ r.toNat → n.toNat = 3 → (gap Config.std r n).toNat = 192000) ∧
    (2 ≤ r.toNat → n.toNat = 4 → (gap Config.std r n).toNat = 224000)

/-- R94: the logical channel is `1 + f[13:12]`, in 1..4, bits 15:14 do not enter it, and acceptance writes it to `ch`. -/
def Obligations.LogicalChannelOfAFrame : Prop :=
  ∀ fr : Frame,
    (logicalChannel fr).toNat = 1 + fr.toNat / 2 ^ 12 % 4 ∧
    1 ≤ (logicalChannel fr).toNat ∧ (logicalChannel fr).toNat ≤ 4 ∧
    (∀ fr' : Frame, fr &&& 0x3FFF = fr' &&& 0x3FFF → logicalChannel fr = logicalChannel fr') ∧
    (∀ s : State, s.st = .calibrated → ∃ t, exec (.txSend fr) s = .next t ∧ t.ch = .written (logicalChannel fr))

/-- R89, R90, R95: the call each phase of a transmission makes. That the trace and `out_level` change when the call is made,
and every other register only at its return, is log 4 (DEDUCED), the model's reading. -/
def Obligations.EachPhaseMakesItsCall : Prop :=
  ∀ (s : State) (clock : Word32) (rest : List Turn) (fr : Frame) (w : BitVec 29) (m : BitVec 28)
    (r n : BitVec 3) (y : BitVec 5),
    s.script = .txStep clock :: rest → s.st = .transmitting → s.outstanding = none →
    s.f = .written fr → s.ch = .written n → s.rep = .written r → s.sym = .written y → y.toNat ≤ 17 →
    s.wawe = .written w → s.mpe = .written m →
    (s.phase = .markOn → step s = .next { s with
      script := rest, trace := s.trace ++ [.level .active], outstanding := some (.level .active),
      outLevel := .known .active }) ∧
    (s.phase = .markWait → step s = .next { s with
      script := rest, trace := s.trace ++ [.sleep (markSleep 158 w)], outstanding := some (.sleep (markSleep 158 w)) }) ∧
    (s.phase = .spaceOn → step s = .next { s with
      script := rest, trace := s.trace ++ [.level .inactive], outstanding := some (.level .inactive),
      outLevel := .known .inactive }) ∧
    (s.phase = .spaceWait → step s = .next { s with
      script := rest,
      trace := s.trace ++ [.sleep (pauseSleep (nominalPause Config.std fr y.toNat) w m)],
      outstanding := some (.sleep (pauseSleep (nominalPause Config.std fr y.toNat) w m)) }) ∧
    (s.phase = .gap → step s = .next { s with
      script := rest,
      trace := s.trace ++ [.sleep (BitVec.ofNat 32 (nominalGap Config.std r.toNat n.toNat))],
      outstanding := some (.sleep (BitVec.ofNat 32 (nominalGap Config.std r.toNat n.toNat))) })

/-- R95, R99: where the sequencer goes when a call of a transmission returns. That the position moves at the return and not
at the call is log 4 (DEDUCED), and that `rep` is 5 after the last gap is log 12 (DEDUCED), both the model's reading. -/
def Obligations.EachReturnAdvancesTheSequencer : Prop :=
  ∀ (s : State) (e : Event) (rest : List Turn) (r : BitVec 3) (y : BitVec 5),
    s.script = .hwReturn none :: rest → s.st = .transmitting → s.outstanding = some e →
    s.rep = .written r → r.toNat ≤ 4 → s.sym = .written y → y.toNat ≤ 17 →
    (s.phase = .markOn → step s = .next { s with script := rest, outstanding := none, phase := .markWait }) ∧
    (s.phase = .markWait → step s = .next { s with script := rest, outstanding := none, phase := .spaceOn }) ∧
    (s.phase = .spaceOn → step s = .next { s with script := rest, outstanding := none, phase := .spaceWait }) ∧
    (s.phase = .spaceWait → y.toNat < 17 →
      step s = .next { s with script := rest, outstanding := none, phase := .markOn, sym := .written (y + 1) }) ∧
    (s.phase = .spaceWait → y.toNat = 17 →
      step s = .next { s with script := rest, outstanding := none, phase := .gap }) ∧
    (s.phase = .gap → r.toNat < 4 →
      step s = .next { s with
        script := rest, outstanding := none, phase := .markOn, rep := .written (r + 1), sym := .written 0 }) ∧
    (s.phase = .gap → r.toNat = 4 →
      step s = .next { s with
        script := rest, outstanding := none, phase := .idle, st := .calibrated, rep := .written 5,
        responses := s.responses ++ [0] })

/-- R79 (the calls): the call each calibration sub-step makes, and the silent `C_DUMMY`. That the trace and `out_level`
change when the call is made, and every other register only at its return, is log 4 (DEDUCED), the model's reading. -/
def Obligations.EachSubstepMakesItsCall : Prop :=
  ∀ (s : State) (clock : Word32) (rest : List Turn) (k : CalStep),
    s.script = .txStep clock :: rest → s.st = .calibrating → s.phase = .cal → s.outstanding = none →
    s.calStep = .written k →
    (k = .cLow ∨ k = .cInact → step s = .next { s with
      script := rest, trace := s.trace ++ [.level .inactive], outstanding := some (.level .inactive),
      outLevel := .known .inactive }) ∧
    (k = .cCarrier → step s = .next { s with
      script := rest, trace := s.trace ++ [.carrier 26], outstanding := some (.carrier 26) }) ∧
    (k = .cT0 ∨ k = .cT1 ∨ k = .cT2 ∨ k = .cT3 → step s = .next { s with
      script := rest, trace := s.trace ++ [.now clock], outstanding := some (.now clock) }) ∧
    (k = .cAct → step s = .next { s with
      script := rest, trace := s.trace ++ [.level .active], outstanding := some (.level .active),
      outLevel := .known .active }) ∧
    (k = .cSlp → step s = .next { s with
      script := rest, trace := s.trace ++ [.sleep 1], outstanding := some (.sleep 1) }) ∧
    (k = .cDummy → step s = .next { s with script := rest, calStep := .written .cT3 }) ∧
    (k = .cSettle → step s = .next { s with
      script := rest, trace := s.trace ++ [.sleep 2000], outstanding := some (.sleep 2000) })

/-- R79, R82, R85, R87 (the returns): what each calibration sub-step writes when its call returns, and where it goes. That
`t0` to `t3`, `wawe`, `mpe`, `cal_i` and the position are written at the return is log 4 (DEDUCED), the model's reading. -/
def Obligations.EachSubstepWritesItsRegisters : Prop :=
  ∀ (s : State) (e : Event) (rest : List Turn) (k : CalStep),
    s.script = .hwReturn none :: rest → s.st = .calibrating → s.phase = .cal → s.outstanding = some e →
    s.calStep = .written k →
    (k = .cLow → step s = .next { s with script := rest, outstanding := none, calStep := .written .cCarrier }) ∧
    (k = .cCarrier → step s = .next { s with script := rest, outstanding := none, calStep := .written .cT0 }) ∧
    (∀ t, k = .cT0 → e = .now t → step s = .next { s with
      script := rest, outstanding := none, t0 := .written t, calI := .written 0, calStep := .written .cAct }) ∧
    (k = .cAct → step s = .next { s with script := rest, outstanding := none, calStep := .written .cSlp }) ∧
    (∀ n : BitVec 4, k = .cSlp → s.calI = .written n → n.toNat < 7 → step s = .next { s with
      script := rest, outstanding := none, calI := .written (n + 1), calStep := .written .cAct }) ∧
    (k = .cSlp → s.calI = .written 7 → step s = .next { s with
      script := rest, outstanding := none, calI := .written 8, calStep := .written .cT1 }) ∧
    (∀ a t : Word32, k = .cT1 → e = .now t → s.t0 = .written a → step s = .next { s with
      script := rest, outstanding := none, t1 := .written t, wawe := .written (BitVec.ofNat 29 ((t - a).toNat / 8)),
      calStep := .written .cInact }) ∧
    (k = .cInact → step s = .next { s with script := rest, outstanding := none, calStep := .written .cT2 }) ∧
    (∀ t, k = .cT2 → e = .now t → step s = .next { s with
      script := rest, outstanding := none, t2 := .written t, calStep := .written .cDummy }) ∧
    (∀ a t : Word32, k = .cT3 → e = .now t → s.t2 = .written a → step s = .next { s with
      script := rest, outstanding := none, t3 := .written t, mpe := .written (BitVec.ofNat 28 ((t - a).toNat / 16)),
      calStep := .written .cSettle }) ∧
    (k = .cSettle → step s = .next { s with
      script := rest, outstanding := none, st := .calibrated, phase := .idle, responses := s.responses ++ [0] })

/-! ### Invariants -/

/-- The invariant holds at reset. -/
def Obligations.InvariantHoldsAtReset : Prop := Inv State.reset

/-- The invariant is kept by every step: in `UNINIT` no register outside R34's reset values is written; in `CALIBRATING`
exactly the registers that the sub-steps so far write (R79) are written, `t0` to `t3` and the efforts included, and `f`,
`ch`, `rep` and `sym` are not; in `CALIBRATED` and `TRANSMITTING` the profile is complete and is that of the clock readings; in
every state the registers are written in order. The sequencer position is one R27 names, the fault registers hold a fault
exactly in `FAULTED`, and no request has two responses. That the outstanding call is the one the position names, and that
`out_level` holds the level it asks for, rests on log 4 (DEDUCED); the count of accepted requests is the model's own (log 6). -/
def Obligations.InvariantIsKeptByEveryStep : Prop :=
  ∀ s t : State, Inv s → step s = .next t → Inv t

/-- R28: "The FSM never does so": from a state that meets the invariant no step reads an unwritten register, and
no step stops at all. -/
def Obligations.NoStepStops : Prop :=
  ∀ s : State, Inv s → ∃ t, step s = .next t

/-- R28 and I21: "A model must fault if it reads such a register". Every read of a register that no rule has written since
reset stops the step, whatever the field holds: the reads of a Transmitter step, of a return without an error, and of a
return with one. Which of these events makes which read is log 4 (DEDUCED). -/
def Obligations.UnwrittenRegisterReadFaults : Prop :=
  ∀ (s : State) (rest : List Turn),
    (∀ clock, s.script = .txStep clock :: rest → s.outstanding = none →
      (s.st = .calibrating → s.phase = .cal → s.calStep.isWritten = false → step s = .fault (.unwritten .calStep)) ∧
      (s.st = .transmitting → s.phase = .markWait → s.wawe.isWritten = false → step s = .fault (.unwritten .wawe)) ∧
      (s.st = .transmitting → s.phase = .spaceWait →
        s.sym.isWritten = false ∨ s.f.isWritten = false ∨ s.wawe.isWritten = false ∨ s.mpe.isWritten = false →
        ∃ r, step s = .fault (.unwritten r)) ∧
      (s.st = .transmitting → s.phase = .gap → s.rep.isWritten = false ∨ s.ch.isWritten = false →
        ∃ r, step s = .fault (.unwritten r))) ∧
    (∀ e, s.script = .hwReturn none :: rest → s.outstanding = some e →
      (s.st = .calibrating → s.phase = .cal →
        (s.calStep.isWritten = false → step s = .fault (.unwritten .calStep)) ∧
        (s.calStep = .written .cSlp → s.calI.isWritten = false → step s = .fault (.unwritten .calI)) ∧
        (∀ t, e = .now t → s.calStep = .written .cT1 → s.t0.isWritten = false → step s = .fault (.unwritten .t0)) ∧
        (∀ t, e = .now t → s.calStep = .written .cT3 → s.t2.isWritten = false → step s = .fault (.unwritten .t2))) ∧
      (s.st = .transmitting → s.phase = .spaceWait → s.sym.isWritten = false → step s = .fault (.unwritten .sym)) ∧
      (s.st = .transmitting → s.phase = .gap → s.rep.isWritten = false → step s = .fault (.unwritten .rep))) ∧
    (∀ e x, s.script = .hwReturn (some x) :: rest → s.outstanding = some e → s.st = .transmitting →
      s.f.isWritten = false → step s = .fault (.unwritten .f))

/-- R91: every requested sleep lies in 1..224000 µs, and every step keeps this. -/
def Obligations.SleepRequestsStayBounded : Prop :=
  ∀ s t : State, Inv s → SleepsBounded s.trace → step s = .next t → SleepsBounded t.trace

/-! ### Completed operations -/

/-- R78 and R87: an uninterrupted `TX_INIT`, for every clock draw, with `CAL_END_INACTIVE` true (24 events; the machine's
own `step`) or false (23 events), emits exactly its events and completes with `resp = 0` and the profile of R82 and R85.
`k` is the draw that calls other than `Now` ignore. -/
def Obligations.CompletedTxInit : Prop :=
  ∀ (b : Bool) (s : State) (rest : List Turn) (k t0 t1 t2 t3 : Word32),
    s.st = .uninit → s.outstanding = none →
    s.script = .port 0x80000000 ::
      (calls ([k, k, t0] ++ List.replicate 16 k ++ [t1] ++ (if b then [k] else []) ++ [t2]) ++ [.txStep k]
        ++ calls [t3, k] ++ rest) →
    (initEvents { calEndInactive := b } t0 t1 t2 t3).length = (if b then 24 else 23) ∧
    ∃ t, (coreUnder { calEndInactive := b }).run (if b then 50 else 48) s = .next t ∧
      (b = true → Sys2Proof.core.run 50 s = .next t) ∧
      t.script = rest ∧ t.st = .calibrated ∧ t.phase = .idle ∧
      t.outstanding = none ∧ t.trace = s.trace ++ initEvents { calEndInactive := b } t0 t1 t2 t3 ∧
      t.responses = s.responses ++ [0] ∧ t.accepted = s.accepted + 1 ∧
      t.wawe = .written (waweOf Config.std t0 t1) ∧ t.mpe = .written (mpeOf Config.std t2 t3) ∧
      t.outLevel = .known (if b then .inactive else .active) ∧ statusCalValid t = true

/-- R98 and R99: an uninterrupted `TX_SEND`, from any calibrated state, emits exactly its 365 events, whatever the clock
draws, and then completes with `resp = 0`, the output inactive and the profile unchanged; the run is then finished (R136)
where nothing else was due. -/
def Obligations.CompletedTxSend : Prop :=
  ∀ (s : State) (rest : List Turn) (clocks : List Word32) (fr : Frame) (w : BitVec 29) (m : BitVec 28),
    s.st = .calibrated → s.outstanding = none → s.wawe = .written w → s.mpe = .written m → clocks.length = 365 →
    s.script = .port (sendWord fr) :: (calls clocks ++ rest) →
    (sendEvents Config.std fr w m 5).length = 365 ∧
    ∃ t, Sys2Proof.core.run 731 s = .next t ∧ t.script = rest ∧ t.st = .calibrated ∧ t.phase = .idle ∧
      t.outstanding = none ∧ t.trace = s.trace ++ sendEvents Config.std fr w m 5 ∧
      t.responses = s.responses ++ [0] ∧ t.accepted = s.accepted + 1 ∧
      t.wawe = .written w ∧ t.mpe = .written m ∧ t.f = .written fr ∧ t.outLevel = .known .inactive ∧
      (s.responses.length = s.accepted → s.abandoned = [] → s.faultCode = .noFault →
        (∀ u ∈ rest, ∀ p, u ≠ .port p) → Finished t)

/-- R98: the events that an uninterrupted `TX_SEND` appends to the trace, counted and placed without the model's own
functions: 365, of which 90 `Level(ACTIVE)`, 90 `Level(INACTIVE)` and 185 `Sleep`, with no `Now` and no `Carrier`; event
`73 r + k` with `k < 72` is phase `k mod 4` of symbol `k div 4` of repetition `r`, and event `73 r + 72` is its gap. -/
def Obligations.ShapeOfATransmission : Prop :=
  ∀ (s : State) (rest : List Turn) (clocks : List Word32) (fr : Frame) (w : BitVec 29) (m : BitVec 28),
    s.st = .calibrated → s.outstanding = none → s.wawe = .written w → s.mpe = .written m → clocks.length = 365 →
    s.script = .port (sendWord fr) :: (calls clocks ++ rest) →
    ∃ (t : State) (es : List Event), Sys2Proof.core.run 731 s = .next t ∧ t.trace = s.trace ++ es ∧ es.length = 365 ∧
      es.count (.level .active) = 90 ∧ es.count (.level .inactive) = 90 ∧ es.countP Event.isSleep = 185 ∧
      (∀ k, .now k ∉ es) ∧ (∀ p, .carrier p ∉ es) ∧
      (∀ r y, r < 5 → y < 18 →
        es[73 * r + 4 * y]? = some (.level .active) ∧
        (∃ d, es[73 * r + 4 * y + 1]? = some (.sleep d) ∧ (d.toNat : Int) = max 1 (158 - (w.toNat : Int))) ∧
        es[73 * r + 4 * y + 2]? = some (.level .inactive) ∧
        (∃ d, es[73 * r + 4 * y + 3]? = some (.sleep d) ∧
          (d.toNat : Int) = max 1
            ((if y = 0 ∨ y = 17 then 1026 else if fr.getLsbD (16 - y) then 553 else 263 : Int) - w.toNat - m.toNat))) ∧
      (∀ r, r < 5 → ∃ d, es[73 * r + 72]? = some (.sleep d) ∧
        d.toNat = (if r < 2 then 5 else 6 + 2 * (1 + fr.toNat / 2 ^ 12 % 4)) * 16000)

/-- R104: with a zero profile one message lasts `2 × 1184 + Σ (bit ? 711 : 421)` µs of requested sleeps, between 9104 and
13744. -/
def Obligations.NominalMessageDuration : Prop :=
  ∀ fr : Frame,
    sleepSum (pulsesEvents Config.std fr 0 0 18) = 2 * 1184 + (onesOf fr * 711 + (16 - onesOf fr) * 421) ∧
    9104 ≤ sleepSum (pulsesEvents Config.std fr 0 0 18) ∧ sleepSum (pulsesEvents Config.std fr 0 0 18) ≤ 13744
end

