-- ==== Sys2Proof/Laws/Decode.lean ====
section
/-! SUPPORT. The operand codes round-trip, the operation field as a number, which request words decode, and that the fields of a frame are the whole frame. -/

namespace Sys2Proof

/-! ### Operand codes -/

@[simp] theorem Output.ofCode_code (o : Output) : Output.ofCode o.code = o := by cases o <;> rfl

@[simp] theorem Output.code_ofCode (b : BitVec 1) : (Output.ofCode b).code = b := by revert b; decide

@[simp] theorem Command.ofCode_code (c : Command) : Command.ofCode c.code = c := by cases c <;> rfl

@[simp] theorem Command.code_ofCode (b : BitVec 2) : (Command.ofCode b).code = b := by revert b; decide

/-- A speed that fits its field is read back. -/
theorem speedOfField_fieldOfSpeed {v : Int} (h : speedInRange v = true) : speedOfField (fieldOfSpeed v) = v := by
  simp [speedInRange] at h
  simp [speedOfField, fieldOfSpeed, BitVec.toInt_ofInt, Int.bmod_def]
  omega

@[simp] theorem fieldOfSpeed_speedOfField (b : BitVec 8) : fieldOfSpeed (speedOfField b) = b := by
  simp [fieldOfSpeed, speedOfField]

/-- Every field value is a speed in range. -/
@[simp] theorem speedInRange_speedOfField (b : BitVec 8) : speedInRange (speedOfField b) = true := by
  have lower := BitVec.le_toInt (x := b)
  have upper := BitVec.toInt_lt (x := b)
  simp at lower upper
  exact decide_eq_true ⟨lower, by unfold speedOfField; omega⟩

/-! ### The operation field -/

theorem opOf_toNat (w : Word32) : (opOf w).toNat = (w >>> 28).toNat := by
  simp [opOf, BitVec.extractLsb'_toNat, Nat.shiftRight_eq_div_pow]
  omega

theorem opOf_eq_iff (w : Word32) {k : Nat} (hk : k < 16) : opOf w = BitVec.ofNat 4 k ↔ (w >>> 28).toNat = k := by
  rw [← BitVec.toNat_inj, opOf_toNat]
  simp
  omega

/-! ### The decoder -/

/-- What a request word decodes to, row by row. -/
theorem decodeRequest_ok {w : Word32} {i : Instr} (h : decodeRequest w = .ok i) :
    (opOf w = 0x1#4 ∧ rowEncSop.Fits w ∧
      i = .encSop (w.extractLsb' 24 2) (Output.ofCode (w.extractLsb' 16 1)) (speedOfField (w.extractLsb' 0 8))) ∨
    (opOf w = 0x2#4 ∧ rowEncCd.Fits w ∧
      i = .encCd (w.extractLsb' 24 2) (Command.ofCode (w.extractLsb' 8 2)) (Command.ofCode (w.extractLsb' 0 2))) ∨
    (opOf w = 0x3#4 ∧ rowEncCp.Fits w ∧
      i = .encCp (w.extractLsb' 24 2) (speedOfField (w.extractLsb' 8 8)) (speedOfField (w.extractLsb' 0 8))) ∨
    (opOf w = 0x8#4 ∧ rowTxInit.Fits w ∧ i = .txInit) ∨
    (opOf w = 0x9#4 ∧ rowTxSend.Fits w ∧ i = .txSend (w.extractLsb' 0 16)) := by
  unfold decodeRequest at h
  split at h
  · next ho => split at h <;> cases h; exact .inl ⟨ho, ‹_›, rfl⟩
  split at h
  · next ho => split at h <;> cases h; exact .inr (.inl ⟨ho, ‹_›, rfl⟩)
  split at h
  · next ho => split at h <;> cases h; exact .inr (.inr (.inl ⟨ho, ‹_›, rfl⟩))
  split at h
  · next ho => split at h <;> cases h; exact .inr (.inr (.inr (.inl ⟨ho, ‹_›, rfl⟩)))
  split at h
  · next ho => split at h <;> cases h; exact .inr (.inr (.inr (.inr ⟨ho, ‹_›, rfl⟩)))
  · cases h

/-- What a frame decodes to: its variant by its fixed bits, or the `TX_SEND` of it. -/
theorem decodeFrame_cases (f : Frame) :
    (rowFrameSop.Fits f ∧ decodeFrame f =
      .frameSop (f.extractLsb' 12 2) (Output.ofCode (f.extractLsb' 8 1)) (f.extractLsb' 4 4) (f.extractLsb' 0 4)) ∨
    (rowFrameCd.Fits f ∧ decodeFrame f =
      .frameCd (f.extractLsb' 12 2) (Command.ofCode (f.extractLsb' 6 2)) (Command.ofCode (f.extractLsb' 4 2))
        (f.extractLsb' 0 4)) ∨
    (rowFrameCp.Fits f ∧ decodeFrame f =
      .frameCp (f.extractLsb' 12 2) (f.extractLsb' 8 4) (f.extractLsb' 4 4) (f.extractLsb' 0 4)) ∨
    decodeFrame f = .txSend f := by
  unfold decodeFrame
  split
  · exact .inl ⟨‹_›, rfl⟩
  split
  · exact .inr (.inl ⟨‹_›, rfl⟩)
  split
  · exact .inr (.inr (.inl ⟨‹_›, rfl⟩))
  · exact .inr (.inr (.inr rfl))

/-- The fields of a single output PWM frame are the whole frame. -/
theorem frameSopBits_of_fits {f : Frame} (h : rowFrameSop.Fits f) :
    frameSopBits (f.extractLsb' 12 2) (Output.ofCode (f.extractLsb' 8 1)) (f.extractLsb' 4 4) (f.extractLsb' 0 4) = f := by
  simp only [frameSopBits, Output.code_ofCode]
  exact BitVec.eq_of_getLsbD_eq fun k hk => by
    have hb := congrArg (fun z => z.getLsbD k) h
    revert hb
    simp only [BitVec.getLsbD_append, rowFrameSop]
    interval_cases k <;> simp

/-- The fields of a combo direct frame are the whole frame. -/
theorem frameCdBits_of_fits {f : Frame} (h : rowFrameCd.Fits f) :
    frameCdBits (f.extractLsb' 12 2) (Command.ofCode (f.extractLsb' 6 2)) (Command.ofCode (f.extractLsb' 4 2))
      (f.extractLsb' 0 4) = f := by
  simp only [frameCdBits, Command.code_ofCode]
  exact BitVec.eq_of_getLsbD_eq fun k hk => by
    have hb := congrArg (fun z => z.getLsbD k) h
    revert hb
    simp only [BitVec.getLsbD_append, rowFrameCd]
    interval_cases k <;> simp

/-- The fields of a combo PWM frame are the whole frame. -/
theorem frameCpBits_of_fits {f : Frame} (h : rowFrameCp.Fits f) :
    frameCpBits (f.extractLsb' 12 2) (f.extractLsb' 8 4) (f.extractLsb' 4 4) (f.extractLsb' 0 4) = f := by
  simp only [frameCpBits]
  exact BitVec.eq_of_getLsbD_eq fun k hk => by
    have hb := congrArg (fun z => z.getLsbD k) h
    revert hb
    simp only [BitVec.getLsbD_append, rowFrameCp]
    interval_cases k <;> simp

end Sys2Proof
end

