-- ==== Sys2Proof/Laws/State.lean ====
section
/-! SUPPORT. What every named update of the state does to every field: one lemma per field per update. -/

namespace Sys2Proof.Machine

variable (s : State)

/-! ### `setScript` -/

@[simp] theorem setScript_st (ts : List Turn) : (setScript ts s).st = s.st := rfl
@[simp] theorem setScript_phase (ts : List Turn) : (setScript ts s).phase = s.phase := rfl
@[simp] theorem setScript_wawe (ts : List Turn) : (setScript ts s).wawe = s.wawe := rfl
@[simp] theorem setScript_mpe (ts : List Turn) : (setScript ts s).mpe = s.mpe := rfl
@[simp] theorem setScript_calStep (ts : List Turn) : (setScript ts s).calStep = s.calStep := rfl
@[simp] theorem setScript_calI (ts : List Turn) : (setScript ts s).calI = s.calI := rfl
@[simp] theorem setScript_t0 (ts : List Turn) : (setScript ts s).t0 = s.t0 := rfl
@[simp] theorem setScript_t1 (ts : List Turn) : (setScript ts s).t1 = s.t1 := rfl
@[simp] theorem setScript_t2 (ts : List Turn) : (setScript ts s).t2 = s.t2 := rfl
@[simp] theorem setScript_t3 (ts : List Turn) : (setScript ts s).t3 = s.t3 := rfl
@[simp] theorem setScript_f (ts : List Turn) : (setScript ts s).f = s.f := rfl
@[simp] theorem setScript_ch (ts : List Turn) : (setScript ts s).ch = s.ch := rfl
@[simp] theorem setScript_rep (ts : List Turn) : (setScript ts s).rep = s.rep := rfl
@[simp] theorem setScript_sym (ts : List Turn) : (setScript ts s).sym = s.sym := rfl
@[simp] theorem setScript_faultCode (ts : List Turn) : (setScript ts s).faultCode = s.faultCode := rfl
@[simp] theorem setScript_faultReq (ts : List Turn) : (setScript ts s).faultReq = s.faultReq := rfl
@[simp] theorem setScript_hwErr (ts : List Turn) : (setScript ts s).hwErr = s.hwErr := rfl
@[simp] theorem setScript_outLevel (ts : List Turn) : (setScript ts s).outLevel = s.outLevel := rfl
@[simp] theorem setScript_outstanding (ts : List Turn) : (setScript ts s).outstanding = s.outstanding := rfl
@[simp] theorem setScript_abandoned (ts : List Turn) : (setScript ts s).abandoned = s.abandoned := rfl
@[simp] theorem setScript_trace (ts : List Turn) : (setScript ts s).trace = s.trace := rfl
@[simp] theorem setScript_responses (ts : List Turn) : (setScript ts s).responses = s.responses := rfl
@[simp] theorem setScript_accepted (ts : List Turn) : (setScript ts s).accepted = s.accepted := rfl
@[simp] theorem setScript_script (ts : List Turn) : (setScript ts s).script = ts := rfl
@[simp] theorem setScript_draws (ts : List Turn) : (setScript ts s).draws = s.draws := rfl

/-! ### `respond` -/

@[simp] theorem respond_st (w : Word32) : (respond w s).st = s.st := rfl
@[simp] theorem respond_phase (w : Word32) : (respond w s).phase = s.phase := rfl
@[simp] theorem respond_wawe (w : Word32) : (respond w s).wawe = s.wawe := rfl
@[simp] theorem respond_mpe (w : Word32) : (respond w s).mpe = s.mpe := rfl
@[simp] theorem respond_calStep (w : Word32) : (respond w s).calStep = s.calStep := rfl
@[simp] theorem respond_calI (w : Word32) : (respond w s).calI = s.calI := rfl
@[simp] theorem respond_t0 (w : Word32) : (respond w s).t0 = s.t0 := rfl
@[simp] theorem respond_t1 (w : Word32) : (respond w s).t1 = s.t1 := rfl
@[simp] theorem respond_t2 (w : Word32) : (respond w s).t2 = s.t2 := rfl
@[simp] theorem respond_t3 (w : Word32) : (respond w s).t3 = s.t3 := rfl
@[simp] theorem respond_f (w : Word32) : (respond w s).f = s.f := rfl
@[simp] theorem respond_ch (w : Word32) : (respond w s).ch = s.ch := rfl
@[simp] theorem respond_rep (w : Word32) : (respond w s).rep = s.rep := rfl
@[simp] theorem respond_sym (w : Word32) : (respond w s).sym = s.sym := rfl
@[simp] theorem respond_faultCode (w : Word32) : (respond w s).faultCode = s.faultCode := rfl
@[simp] theorem respond_faultReq (w : Word32) : (respond w s).faultReq = s.faultReq := rfl
@[simp] theorem respond_hwErr (w : Word32) : (respond w s).hwErr = s.hwErr := rfl
@[simp] theorem respond_outLevel (w : Word32) : (respond w s).outLevel = s.outLevel := rfl
@[simp] theorem respond_outstanding (w : Word32) : (respond w s).outstanding = s.outstanding := rfl
@[simp] theorem respond_abandoned (w : Word32) : (respond w s).abandoned = s.abandoned := rfl
@[simp] theorem respond_trace (w : Word32) : (respond w s).trace = s.trace := rfl
@[simp] theorem respond_responses (w : Word32) : (respond w s).responses = s.responses ++ [w] := rfl
@[simp] theorem respond_accepted (w : Word32) : (respond w s).accepted = s.accepted := rfl
@[simp] theorem respond_script (w : Word32) : (respond w s).script = s.script := rfl
@[simp] theorem respond_draws (w : Word32) : (respond w s).draws = s.draws := rfl

/-! ### `accept` -/

@[simp] theorem accept_st : (accept s).st = s.st := rfl
@[simp] theorem accept_phase : (accept s).phase = s.phase := rfl
@[simp] theorem accept_wawe : (accept s).wawe = s.wawe := rfl
@[simp] theorem accept_mpe : (accept s).mpe = s.mpe := rfl
@[simp] theorem accept_calStep : (accept s).calStep = s.calStep := rfl
@[simp] theorem accept_calI : (accept s).calI = s.calI := rfl
@[simp] theorem accept_t0 : (accept s).t0 = s.t0 := rfl
@[simp] theorem accept_t1 : (accept s).t1 = s.t1 := rfl
@[simp] theorem accept_t2 : (accept s).t2 = s.t2 := rfl
@[simp] theorem accept_t3 : (accept s).t3 = s.t3 := rfl
@[simp] theorem accept_f : (accept s).f = s.f := rfl
@[simp] theorem accept_ch : (accept s).ch = s.ch := rfl
@[simp] theorem accept_rep : (accept s).rep = s.rep := rfl
@[simp] theorem accept_sym : (accept s).sym = s.sym := rfl
@[simp] theorem accept_faultCode : (accept s).faultCode = s.faultCode := rfl
@[simp] theorem accept_faultReq : (accept s).faultReq = s.faultReq := rfl
@[simp] theorem accept_hwErr : (accept s).hwErr = s.hwErr := rfl
@[simp] theorem accept_outLevel : (accept s).outLevel = s.outLevel := rfl
@[simp] theorem accept_outstanding : (accept s).outstanding = s.outstanding := rfl
@[simp] theorem accept_abandoned : (accept s).abandoned = s.abandoned := rfl
@[simp] theorem accept_trace : (accept s).trace = s.trace := rfl
@[simp] theorem accept_responses : (accept s).responses = s.responses := rfl
@[simp] theorem accept_accepted : (accept s).accepted = s.accepted + 1 := rfl
@[simp] theorem accept_script : (accept s).script = s.script := rfl
@[simp] theorem accept_draws : (accept s).draws = s.draws := rfl

/-! ### `makeCall` -/

@[simp] theorem makeCall_st (e : Event) : (makeCall e s).st = s.st := rfl
@[simp] theorem makeCall_phase (e : Event) : (makeCall e s).phase = s.phase := rfl
@[simp] theorem makeCall_wawe (e : Event) : (makeCall e s).wawe = s.wawe := rfl
@[simp] theorem makeCall_mpe (e : Event) : (makeCall e s).mpe = s.mpe := rfl
@[simp] theorem makeCall_calStep (e : Event) : (makeCall e s).calStep = s.calStep := rfl
@[simp] theorem makeCall_calI (e : Event) : (makeCall e s).calI = s.calI := rfl
@[simp] theorem makeCall_t0 (e : Event) : (makeCall e s).t0 = s.t0 := rfl
@[simp] theorem makeCall_t1 (e : Event) : (makeCall e s).t1 = s.t1 := rfl
@[simp] theorem makeCall_t2 (e : Event) : (makeCall e s).t2 = s.t2 := rfl
@[simp] theorem makeCall_t3 (e : Event) : (makeCall e s).t3 = s.t3 := rfl
@[simp] theorem makeCall_f (e : Event) : (makeCall e s).f = s.f := rfl
@[simp] theorem makeCall_ch (e : Event) : (makeCall e s).ch = s.ch := rfl
@[simp] theorem makeCall_rep (e : Event) : (makeCall e s).rep = s.rep := rfl
@[simp] theorem makeCall_sym (e : Event) : (makeCall e s).sym = s.sym := rfl
@[simp] theorem makeCall_faultCode (e : Event) : (makeCall e s).faultCode = s.faultCode := rfl
@[simp] theorem makeCall_faultReq (e : Event) : (makeCall e s).faultReq = s.faultReq := rfl
@[simp] theorem makeCall_hwErr (e : Event) : (makeCall e s).hwErr = s.hwErr := rfl
@[simp] theorem makeCall_outLevel (e : Event) : (makeCall e s).outLevel = e.shadow s.outLevel := rfl
@[simp] theorem makeCall_outstanding (e : Event) : (makeCall e s).outstanding = some e := rfl
@[simp] theorem makeCall_abandoned (e : Event) : (makeCall e s).abandoned = s.abandoned := rfl
@[simp] theorem makeCall_trace (e : Event) : (makeCall e s).trace = s.trace ++ [e] := rfl
@[simp] theorem makeCall_responses (e : Event) : (makeCall e s).responses = s.responses := rfl
@[simp] theorem makeCall_accepted (e : Event) : (makeCall e s).accepted = s.accepted := rfl
@[simp] theorem makeCall_script (e : Event) : (makeCall e s).script = s.script := rfl
@[simp] theorem makeCall_draws (e : Event) : (makeCall e s).draws = s.draws := rfl

/-! ### `endCall` -/

@[simp] theorem endCall_st : (endCall s).st = s.st := rfl
@[simp] theorem endCall_phase : (endCall s).phase = s.phase := rfl
@[simp] theorem endCall_wawe : (endCall s).wawe = s.wawe := rfl
@[simp] theorem endCall_mpe : (endCall s).mpe = s.mpe := rfl
@[simp] theorem endCall_calStep : (endCall s).calStep = s.calStep := rfl
@[simp] theorem endCall_calI : (endCall s).calI = s.calI := rfl
@[simp] theorem endCall_t0 : (endCall s).t0 = s.t0 := rfl
@[simp] theorem endCall_t1 : (endCall s).t1 = s.t1 := rfl
@[simp] theorem endCall_t2 : (endCall s).t2 = s.t2 := rfl
@[simp] theorem endCall_t3 : (endCall s).t3 = s.t3 := rfl
@[simp] theorem endCall_f : (endCall s).f = s.f := rfl
@[simp] theorem endCall_ch : (endCall s).ch = s.ch := rfl
@[simp] theorem endCall_rep : (endCall s).rep = s.rep := rfl
@[simp] theorem endCall_sym : (endCall s).sym = s.sym := rfl
@[simp] theorem endCall_faultCode : (endCall s).faultCode = s.faultCode := rfl
@[simp] theorem endCall_faultReq : (endCall s).faultReq = s.faultReq := rfl
@[simp] theorem endCall_hwErr : (endCall s).hwErr = s.hwErr := rfl
@[simp] theorem endCall_outLevel : (endCall s).outLevel = s.outLevel := rfl
@[simp] theorem endCall_outstanding : (endCall s).outstanding = none := rfl
@[simp] theorem endCall_abandoned : (endCall s).abandoned = s.abandoned := rfl
@[simp] theorem endCall_trace : (endCall s).trace = s.trace := rfl
@[simp] theorem endCall_responses : (endCall s).responses = s.responses := rfl
@[simp] theorem endCall_accepted : (endCall s).accepted = s.accepted := rfl
@[simp] theorem endCall_script : (endCall s).script = s.script := rfl
@[simp] theorem endCall_draws : (endCall s).draws = s.draws := rfl

/-! ### `raiseFault` -/

@[simp] theorem raiseFault_st (code : FaultCode) (w : Word32) : (raiseFault code w s).st = .faulted := rfl
@[simp] theorem raiseFault_phase (code : FaultCode) (w : Word32) : (raiseFault code w s).phase = .idle := rfl
@[simp] theorem raiseFault_wawe (code : FaultCode) (w : Word32) : (raiseFault code w s).wawe = s.wawe := rfl
@[simp] theorem raiseFault_mpe (code : FaultCode) (w : Word32) : (raiseFault code w s).mpe = s.mpe := rfl
@[simp] theorem raiseFault_calStep (code : FaultCode) (w : Word32) : (raiseFault code w s).calStep = s.calStep := rfl
@[simp] theorem raiseFault_calI (code : FaultCode) (w : Word32) : (raiseFault code w s).calI = s.calI := rfl
@[simp] theorem raiseFault_t0 (code : FaultCode) (w : Word32) : (raiseFault code w s).t0 = s.t0 := rfl
@[simp] theorem raiseFault_t1 (code : FaultCode) (w : Word32) : (raiseFault code w s).t1 = s.t1 := rfl
@[simp] theorem raiseFault_t2 (code : FaultCode) (w : Word32) : (raiseFault code w s).t2 = s.t2 := rfl
@[simp] theorem raiseFault_t3 (code : FaultCode) (w : Word32) : (raiseFault code w s).t3 = s.t3 := rfl
@[simp] theorem raiseFault_f (code : FaultCode) (w : Word32) : (raiseFault code w s).f = s.f := rfl
@[simp] theorem raiseFault_ch (code : FaultCode) (w : Word32) : (raiseFault code w s).ch = s.ch := rfl
@[simp] theorem raiseFault_rep (code : FaultCode) (w : Word32) : (raiseFault code w s).rep = s.rep := rfl
@[simp] theorem raiseFault_sym (code : FaultCode) (w : Word32) : (raiseFault code w s).sym = s.sym := rfl
@[simp] theorem raiseFault_faultCode (code : FaultCode) (w : Word32) : (raiseFault code w s).faultCode = code := rfl
@[simp] theorem raiseFault_faultReq (code : FaultCode) (w : Word32) : (raiseFault code w s).faultReq = .written w := rfl
@[simp] theorem raiseFault_hwErr (code : FaultCode) (w : Word32) : (raiseFault code w s).hwErr = s.hwErr := rfl
@[simp] theorem raiseFault_outLevel (code : FaultCode) (w : Word32) : (raiseFault code w s).outLevel = s.outLevel := rfl
@[simp] theorem raiseFault_outstanding (code : FaultCode) (w : Word32) : (raiseFault code w s).outstanding = none := rfl
@[simp] theorem raiseFault_abandoned (code : FaultCode) (w : Word32) : (raiseFault code w s).abandoned = s.abandoned ++ s.outstanding.toList := rfl
@[simp] theorem raiseFault_trace (code : FaultCode) (w : Word32) : (raiseFault code w s).trace = s.trace := rfl
@[simp] theorem raiseFault_responses (code : FaultCode) (w : Word32) : (raiseFault code w s).responses = s.responses := rfl
@[simp] theorem raiseFault_accepted (code : FaultCode) (w : Word32) : (raiseFault code w s).accepted = s.accepted := rfl
@[simp] theorem raiseFault_script (code : FaultCode) (w : Word32) : (raiseFault code w s).script = s.script := rfl
@[simp] theorem raiseFault_draws (code : FaultCode) (w : Word32) : (raiseFault code w s).draws = s.draws := rfl

/-! ### `resetCore` -/

@[simp] theorem resetCore_st : (resetCore s).st = .uninit := rfl
@[simp] theorem resetCore_phase : (resetCore s).phase = .idle := rfl
@[simp] theorem resetCore_wawe : (resetCore s).wawe = .fresh 0 := rfl
@[simp] theorem resetCore_mpe : (resetCore s).mpe = .fresh 0 := rfl
@[simp] theorem resetCore_calStep : (resetCore s).calStep = .fresh .cLow := rfl
@[simp] theorem resetCore_calI : (resetCore s).calI = .fresh 0 := rfl
@[simp] theorem resetCore_t0 : (resetCore s).t0 = .fresh 0 := rfl
@[simp] theorem resetCore_t1 : (resetCore s).t1 = .fresh 0 := rfl
@[simp] theorem resetCore_t2 : (resetCore s).t2 = .fresh 0 := rfl
@[simp] theorem resetCore_t3 : (resetCore s).t3 = .fresh 0 := rfl
@[simp] theorem resetCore_f : (resetCore s).f = .fresh 0 := rfl
@[simp] theorem resetCore_ch : (resetCore s).ch = .fresh 0 := rfl
@[simp] theorem resetCore_rep : (resetCore s).rep = .fresh 0 := rfl
@[simp] theorem resetCore_sym : (resetCore s).sym = .fresh 0 := rfl
@[simp] theorem resetCore_faultCode : (resetCore s).faultCode = .noFault := rfl
@[simp] theorem resetCore_faultReq : (resetCore s).faultReq = .fresh 0 := rfl
@[simp] theorem resetCore_hwErr : (resetCore s).hwErr = .fresh 0 := rfl
@[simp] theorem resetCore_outLevel : (resetCore s).outLevel = .unknown := rfl
@[simp] theorem resetCore_outstanding : (resetCore s).outstanding = none := rfl
@[simp] theorem resetCore_abandoned : (resetCore s).abandoned = s.abandoned ++ s.outstanding.toList := rfl
@[simp] theorem resetCore_trace : (resetCore s).trace = s.trace := rfl
@[simp] theorem resetCore_responses : (resetCore s).responses = s.responses := rfl
@[simp] theorem resetCore_accepted : (resetCore s).accepted = s.accepted := rfl
@[simp] theorem resetCore_script : (resetCore s).script = s.script := rfl
@[simp] theorem resetCore_draws : (resetCore s).draws = s.draws := rfl

/-! ### `startCalibration` -/

@[simp] theorem startCalibration_st : (startCalibration s).st = .calibrating := rfl
@[simp] theorem startCalibration_phase : (startCalibration s).phase = .cal := rfl
@[simp] theorem startCalibration_wawe : (startCalibration s).wawe = s.wawe := rfl
@[simp] theorem startCalibration_mpe : (startCalibration s).mpe = s.mpe := rfl
@[simp] theorem startCalibration_calStep : (startCalibration s).calStep = .written .cLow := rfl
@[simp] theorem startCalibration_calI : (startCalibration s).calI = .written 0 := rfl
@[simp] theorem startCalibration_t0 : (startCalibration s).t0 = s.t0 := rfl
@[simp] theorem startCalibration_t1 : (startCalibration s).t1 = s.t1 := rfl
@[simp] theorem startCalibration_t2 : (startCalibration s).t2 = s.t2 := rfl
@[simp] theorem startCalibration_t3 : (startCalibration s).t3 = s.t3 := rfl
@[simp] theorem startCalibration_f : (startCalibration s).f = s.f := rfl
@[simp] theorem startCalibration_ch : (startCalibration s).ch = s.ch := rfl
@[simp] theorem startCalibration_rep : (startCalibration s).rep = s.rep := rfl
@[simp] theorem startCalibration_sym : (startCalibration s).sym = s.sym := rfl
@[simp] theorem startCalibration_faultCode : (startCalibration s).faultCode = s.faultCode := rfl
@[simp] theorem startCalibration_faultReq : (startCalibration s).faultReq = s.faultReq := rfl
@[simp] theorem startCalibration_hwErr : (startCalibration s).hwErr = s.hwErr := rfl
@[simp] theorem startCalibration_outLevel : (startCalibration s).outLevel = s.outLevel := rfl
@[simp] theorem startCalibration_outstanding : (startCalibration s).outstanding = s.outstanding := rfl
@[simp] theorem startCalibration_abandoned : (startCalibration s).abandoned = s.abandoned := rfl
@[simp] theorem startCalibration_trace : (startCalibration s).trace = s.trace := rfl
@[simp] theorem startCalibration_responses : (startCalibration s).responses = s.responses := rfl
@[simp] theorem startCalibration_accepted : (startCalibration s).accepted = s.accepted := rfl
@[simp] theorem startCalibration_script : (startCalibration s).script = s.script := rfl
@[simp] theorem startCalibration_draws : (startCalibration s).draws = s.draws := rfl

/-! ### `complete` -/

@[simp] theorem complete_st : (complete s).st = .calibrated := rfl
@[simp] theorem complete_phase : (complete s).phase = .idle := rfl
@[simp] theorem complete_wawe : (complete s).wawe = s.wawe := rfl
@[simp] theorem complete_mpe : (complete s).mpe = s.mpe := rfl
@[simp] theorem complete_calStep : (complete s).calStep = s.calStep := rfl
@[simp] theorem complete_calI : (complete s).calI = s.calI := rfl
@[simp] theorem complete_t0 : (complete s).t0 = s.t0 := rfl
@[simp] theorem complete_t1 : (complete s).t1 = s.t1 := rfl
@[simp] theorem complete_t2 : (complete s).t2 = s.t2 := rfl
@[simp] theorem complete_t3 : (complete s).t3 = s.t3 := rfl
@[simp] theorem complete_f : (complete s).f = s.f := rfl
@[simp] theorem complete_ch : (complete s).ch = s.ch := rfl
@[simp] theorem complete_rep : (complete s).rep = s.rep := rfl
@[simp] theorem complete_sym : (complete s).sym = s.sym := rfl
@[simp] theorem complete_faultCode : (complete s).faultCode = s.faultCode := rfl
@[simp] theorem complete_faultReq : (complete s).faultReq = s.faultReq := rfl
@[simp] theorem complete_hwErr : (complete s).hwErr = s.hwErr := rfl
@[simp] theorem complete_outLevel : (complete s).outLevel = s.outLevel := rfl
@[simp] theorem complete_outstanding : (complete s).outstanding = s.outstanding := rfl
@[simp] theorem complete_abandoned : (complete s).abandoned = s.abandoned := rfl
@[simp] theorem complete_trace : (complete s).trace = s.trace := rfl
@[simp] theorem complete_responses : (complete s).responses = s.responses ++ [0] := rfl
@[simp] theorem complete_accepted : (complete s).accepted = s.accepted := rfl
@[simp] theorem complete_script : (complete s).script = s.script := rfl
@[simp] theorem complete_draws : (complete s).draws = s.draws := rfl

/-! ### `startSend` -/

@[simp] theorem startSend_st (frame : Frame) : (startSend frame s).st = .transmitting := rfl
@[simp] theorem startSend_phase (frame : Frame) : (startSend frame s).phase = .markOn := rfl
@[simp] theorem startSend_wawe (frame : Frame) : (startSend frame s).wawe = s.wawe := rfl
@[simp] theorem startSend_mpe (frame : Frame) : (startSend frame s).mpe = s.mpe := rfl
@[simp] theorem startSend_calStep (frame : Frame) : (startSend frame s).calStep = s.calStep := rfl
@[simp] theorem startSend_calI (frame : Frame) : (startSend frame s).calI = s.calI := rfl
@[simp] theorem startSend_t0 (frame : Frame) : (startSend frame s).t0 = s.t0 := rfl
@[simp] theorem startSend_t1 (frame : Frame) : (startSend frame s).t1 = s.t1 := rfl
@[simp] theorem startSend_t2 (frame : Frame) : (startSend frame s).t2 = s.t2 := rfl
@[simp] theorem startSend_t3 (frame : Frame) : (startSend frame s).t3 = s.t3 := rfl
@[simp] theorem startSend_f (frame : Frame) : (startSend frame s).f = .written frame := rfl
@[simp] theorem startSend_ch (frame : Frame) : (startSend frame s).ch = .written (logicalChannel frame) := rfl
@[simp] theorem startSend_rep (frame : Frame) : (startSend frame s).rep = .written 0 := rfl
@[simp] theorem startSend_sym (frame : Frame) : (startSend frame s).sym = .written 0 := rfl
@[simp] theorem startSend_faultCode (frame : Frame) : (startSend frame s).faultCode = s.faultCode := rfl
@[simp] theorem startSend_faultReq (frame : Frame) : (startSend frame s).faultReq = s.faultReq := rfl
@[simp] theorem startSend_hwErr (frame : Frame) : (startSend frame s).hwErr = s.hwErr := rfl
@[simp] theorem startSend_outLevel (frame : Frame) : (startSend frame s).outLevel = s.outLevel := rfl
@[simp] theorem startSend_outstanding (frame : Frame) : (startSend frame s).outstanding = s.outstanding := rfl
@[simp] theorem startSend_abandoned (frame : Frame) : (startSend frame s).abandoned = s.abandoned := rfl
@[simp] theorem startSend_trace (frame : Frame) : (startSend frame s).trace = s.trace := rfl
@[simp] theorem startSend_responses (frame : Frame) : (startSend frame s).responses = s.responses := rfl
@[simp] theorem startSend_accepted (frame : Frame) : (startSend frame s).accepted = s.accepted := rfl
@[simp] theorem startSend_script (frame : Frame) : (startSend frame s).script = s.script := rfl
@[simp] theorem startSend_draws (frame : Frame) : (startSend frame s).draws = s.draws := rfl

/-! ### `dummyStep` -/

@[simp] theorem dummyStep_st : (dummyStep s).st = s.st := rfl
@[simp] theorem dummyStep_phase : (dummyStep s).phase = s.phase := rfl
@[simp] theorem dummyStep_wawe : (dummyStep s).wawe = s.wawe := rfl
@[simp] theorem dummyStep_mpe : (dummyStep s).mpe = s.mpe := rfl
@[simp] theorem dummyStep_calStep : (dummyStep s).calStep = .written .cT3 := rfl
@[simp] theorem dummyStep_calI : (dummyStep s).calI = s.calI := rfl
@[simp] theorem dummyStep_t0 : (dummyStep s).t0 = s.t0 := rfl
@[simp] theorem dummyStep_t1 : (dummyStep s).t1 = s.t1 := rfl
@[simp] theorem dummyStep_t2 : (dummyStep s).t2 = s.t2 := rfl
@[simp] theorem dummyStep_t3 : (dummyStep s).t3 = s.t3 := rfl
@[simp] theorem dummyStep_f : (dummyStep s).f = s.f := rfl
@[simp] theorem dummyStep_ch : (dummyStep s).ch = s.ch := rfl
@[simp] theorem dummyStep_rep : (dummyStep s).rep = s.rep := rfl
@[simp] theorem dummyStep_sym : (dummyStep s).sym = s.sym := rfl
@[simp] theorem dummyStep_faultCode : (dummyStep s).faultCode = s.faultCode := rfl
@[simp] theorem dummyStep_faultReq : (dummyStep s).faultReq = s.faultReq := rfl
@[simp] theorem dummyStep_hwErr : (dummyStep s).hwErr = s.hwErr := rfl
@[simp] theorem dummyStep_outLevel : (dummyStep s).outLevel = s.outLevel := rfl
@[simp] theorem dummyStep_outstanding : (dummyStep s).outstanding = s.outstanding := rfl
@[simp] theorem dummyStep_abandoned : (dummyStep s).abandoned = s.abandoned := rfl
@[simp] theorem dummyStep_trace : (dummyStep s).trace = s.trace := rfl
@[simp] theorem dummyStep_responses : (dummyStep s).responses = s.responses := rfl
@[simp] theorem dummyStep_accepted : (dummyStep s).accepted = s.accepted := rfl
@[simp] theorem dummyStep_script : (dummyStep s).script = s.script := rfl
@[simp] theorem dummyStep_draws : (dummyStep s).draws = s.draws := rfl

/-! ### `lateReturn` -/

@[simp] theorem lateReturn_st : (lateReturn s).st = s.st := rfl
@[simp] theorem lateReturn_phase : (lateReturn s).phase = s.phase := rfl
@[simp] theorem lateReturn_wawe : (lateReturn s).wawe = s.wawe := rfl
@[simp] theorem lateReturn_mpe : (lateReturn s).mpe = s.mpe := rfl
@[simp] theorem lateReturn_calStep : (lateReturn s).calStep = s.calStep := rfl
@[simp] theorem lateReturn_calI : (lateReturn s).calI = s.calI := rfl
@[simp] theorem lateReturn_t0 : (lateReturn s).t0 = s.t0 := rfl
@[simp] theorem lateReturn_t1 : (lateReturn s).t1 = s.t1 := rfl
@[simp] theorem lateReturn_t2 : (lateReturn s).t2 = s.t2 := rfl
@[simp] theorem lateReturn_t3 : (lateReturn s).t3 = s.t3 := rfl
@[simp] theorem lateReturn_f : (lateReturn s).f = s.f := rfl
@[simp] theorem lateReturn_ch : (lateReturn s).ch = s.ch := rfl
@[simp] theorem lateReturn_rep : (lateReturn s).rep = s.rep := rfl
@[simp] theorem lateReturn_sym : (lateReturn s).sym = s.sym := rfl
@[simp] theorem lateReturn_faultCode : (lateReturn s).faultCode = s.faultCode := rfl
@[simp] theorem lateReturn_faultReq : (lateReturn s).faultReq = s.faultReq := rfl
@[simp] theorem lateReturn_hwErr : (lateReturn s).hwErr = s.hwErr := rfl
@[simp] theorem lateReturn_outLevel : (lateReturn s).outLevel = s.outLevel := rfl
@[simp] theorem lateReturn_outstanding : (lateReturn s).outstanding = s.outstanding := rfl
@[simp] theorem lateReturn_abandoned : (lateReturn s).abandoned = s.abandoned.tail := rfl
@[simp] theorem lateReturn_trace : (lateReturn s).trace = s.trace := rfl
@[simp] theorem lateReturn_responses : (lateReturn s).responses = s.responses := rfl
@[simp] theorem lateReturn_accepted : (lateReturn s).accepted = s.accepted := rfl
@[simp] theorem lateReturn_script : (lateReturn s).script = s.script := rfl
@[simp] theorem lateReturn_draws : (lateReturn s).draws = s.draws := rfl

/-! ### `nextDraw` -/

@[simp] theorem nextDraw_st : (nextDraw s).st = s.st := rfl
@[simp] theorem nextDraw_phase : (nextDraw s).phase = s.phase := rfl
@[simp] theorem nextDraw_wawe : (nextDraw s).wawe = s.wawe := rfl
@[simp] theorem nextDraw_mpe : (nextDraw s).mpe = s.mpe := rfl
@[simp] theorem nextDraw_calStep : (nextDraw s).calStep = s.calStep := rfl
@[simp] theorem nextDraw_calI : (nextDraw s).calI = s.calI := rfl
@[simp] theorem nextDraw_t0 : (nextDraw s).t0 = s.t0 := rfl
@[simp] theorem nextDraw_t1 : (nextDraw s).t1 = s.t1 := rfl
@[simp] theorem nextDraw_t2 : (nextDraw s).t2 = s.t2 := rfl
@[simp] theorem nextDraw_t3 : (nextDraw s).t3 = s.t3 := rfl
@[simp] theorem nextDraw_f : (nextDraw s).f = s.f := rfl
@[simp] theorem nextDraw_ch : (nextDraw s).ch = s.ch := rfl
@[simp] theorem nextDraw_rep : (nextDraw s).rep = s.rep := rfl
@[simp] theorem nextDraw_sym : (nextDraw s).sym = s.sym := rfl
@[simp] theorem nextDraw_faultCode : (nextDraw s).faultCode = s.faultCode := rfl
@[simp] theorem nextDraw_faultReq : (nextDraw s).faultReq = s.faultReq := rfl
@[simp] theorem nextDraw_hwErr : (nextDraw s).hwErr = s.hwErr := rfl
@[simp] theorem nextDraw_outLevel : (nextDraw s).outLevel = s.outLevel := rfl
@[simp] theorem nextDraw_outstanding : (nextDraw s).outstanding = s.outstanding := rfl
@[simp] theorem nextDraw_abandoned : (nextDraw s).abandoned = s.abandoned := rfl
@[simp] theorem nextDraw_trace : (nextDraw s).trace = s.trace := rfl
@[simp] theorem nextDraw_responses : (nextDraw s).responses = s.responses := rfl
@[simp] theorem nextDraw_accepted : (nextDraw s).accepted = s.accepted := rfl
@[simp] theorem nextDraw_script : (nextDraw s).script = s.script := rfl
@[simp] theorem nextDraw_draws : (nextDraw s).draws = s.draws + 1 := rfl

end Sys2Proof.Machine
end

