-- ==== Sys2Proof/Laws/Ops.lean ====
section
/-! SUPPORT. One lemma per shared operation: everything it can do. -/

namespace Sys2Proof.Machine

/-! ### Registers and outcomes -/

@[simp] theorem isWritten_written {α : Type} (a : α) : (RegVal.written a).isWritten = true := rfl

@[simp] theorem isWritten_fresh {α : Type} (a : α) : (RegVal.fresh a).isWritten = false := rfl

/-- A register is written exactly if it is some written value. -/
theorem isWritten_iff {α : Type} {v : RegVal α} : v.isWritten = true ↔ ∃ a, v = .written a := by
  cases v <;> simp

@[simp] theorem needReg_written {α β : Type} (r : Reg) (a : α) (k : α → Except Fault β) :
    needReg r (.written a) k = k a := rfl

@[simp] theorem needReg_fresh {α β : Type} (r : Reg) (a : α) (k : α → Except Fault β) :
    needReg r (.fresh a) k = .error (.unwritten r) := rfl

/-- A computation that reads a register goes on only if the register has been written. -/
theorem needReg_ok {α β : Type} {r : Reg} {v : RegVal α} {k : α → Except Fault β} {b : β}
    (h : needReg r v k = .ok b) : ∃ a, v = .written a ∧ k a = .ok b := by
  cases v with
  | fresh a => simp at h
  | written a => exact ⟨a, rfl, h⟩

@[simp] theorem toResult_ok (s : State) : toResult (.ok s) = .next s := rfl

@[simp] theorem toResult_error (r : Fault) : toResult (.error r) = .fault r := rfl

theorem toResult_next {x : Except Fault State} {t : State} (h : toResult x = .next t) : x = .ok t := by
  cases x with
  | ok s => simp at h; rw [h]
  | error r => simp at h

@[simp] theorem shadow_level (l : Level) (o : OutLevel) : Event.shadow (.level l) o = .known l := rfl

@[simp] theorem shadow_carrier (p : Nat) (o : OutLevel) : Event.shadow (.carrier p) o = o := rfl

@[simp] theorem shadow_sleep (d : Word32) (o : OutLevel) : Event.shadow (.sleep d) o = o := rfl

@[simp] theorem shadow_now (t : Word32) (o : OutLevel) : Event.shadow (.now t) o = o := rfl

/-! ### The meanings -/

/-- An Encoder request is answered, or not taken in `FAULTED`. -/
theorem answerFrame_next {frame : Frame} {s t : State} (h : answerFrame frame s = .next t) :
    (s.st = .faulted ∧ t = s) ∨ (s.st ≠ .faulted ∧ t = respond (frame.setWidth 32) (accept s)) := by
  unfold answerFrame at h
  split at h
  · next hf => cases h; exact .inl ⟨hf, rfl⟩
  · next hf => cases h; exact .inr ⟨hf, rfl⟩

/-- A frame given to the Transmitter is accepted, faults, or is not taken. -/
theorem sendFrame_next {frame : Frame} {s t : State} (h : sendFrame frame s = .next t) :
    (s.st = .calibrated ∧ t = startSend frame (accept s)) ∨
    ((s.st = .uninit ∨ s.st = .calibrating) ∧ t = raiseFault .sendNotCalibrated (sendWord frame) s) ∨
    (s.st = .transmitting ∧ t = raiseFault .sendBusy (sendWord frame) s) ∨
    (s.st = .faulted ∧ t = s) := by
  unfold sendFrame at h
  split at h <;> cases h <;> simp_all

/-- `TX_INIT` is accepted, faults, or is not taken. -/
theorem execTxInit_next {s t : State} (h : execTxInit s = .next t) :
    (s.st = .uninit ∧ t = startCalibration (accept s)) ∨
    ((s.st = .calibrating ∨ s.st = .calibrated ∨ s.st = .transmitting) ∧ t = raiseFault .initTwice initWord s) ∨
    (s.st = .faulted ∧ t = s) := by
  unfold execTxInit at h
  split at h <;> cases h <;> simp_all

/-- What an instruction can do: nothing (in `FAULTED`), an answer, the acceptance of a calibration or of a frame, or a
fault of the request. -/
inductive ExecMove (s : State) : State → Prop
  | untaken : s.st = .faulted → ExecMove s s
  | answer (frame : Frame) : s.st ≠ .faulted → ExecMove s (respond (frame.setWidth 32) (accept s))
  | startCal : s.st = .uninit → ExecMove s (startCalibration (accept s))
  | send (frame : Frame) : s.st = .calibrated → ExecMove s (startSend frame (accept s))
  | fault (code : FaultCode) (w : Word32) : s.st ≠ .faulted →
      code = .sendNotCalibrated ∨ code = .sendBusy ∨ code = .initTwice → ExecMove s (raiseFault code w s)

theorem answerFrame_move {frame : Frame} {s t : State} (h : answerFrame frame s = .next t) : ExecMove s t := by
  rcases answerFrame_next h with ⟨hf, rfl⟩ | ⟨hf, rfl⟩
  · exact .untaken hf
  · exact .answer frame hf

theorem sendFrame_move {frame : Frame} {s t : State} (h : sendFrame frame s = .next t) : ExecMove s t := by
  rcases sendFrame_next h with ⟨hs, rfl⟩ | ⟨hs, rfl⟩ | ⟨hs, rfl⟩ | ⟨hs, rfl⟩
  · exact .send frame hs
  · exact .fault _ _ (by rcases hs with h | h <;> simp [h]) (by simp)
  · exact .fault _ _ (by simp [hs]) (by simp)
  · exact .untaken hs

theorem exec_next {i : Instr} {s t : State} (h : exec i s = .next t) : ExecMove s t := by
  cases i with
  | encSop ch out speed => exact answerFrame_move h
  | encCd ch cmdR cmdB => exact answerFrame_move h
  | encCp ch spdR spdB => exact answerFrame_move h
  | txInit =>
    rcases execTxInit_next h with ⟨hs, rfl⟩ | ⟨hs, rfl⟩ | ⟨hs, rfl⟩
    · exact .startCal hs
    · exact .fault _ _ (by rcases hs with h | h | h <;> simp [h]) (by simp)
    · exact .untaken hs
  | txSend f => exact sendFrame_move h
  | frameSop ch out n3 lrc => exact sendFrame_move h
  | frameCd ch cmdB cmdR lrc => exact sendFrame_move h
  | frameCp ch n2 n3 lrc => exact sendFrame_move h

/-- Every instruction takes a next state: no meaning stops. -/
theorem exec_isNext (i : Instr) (s : State) : ∃ t, exec i s = .next t := by
  have answered : ∀ frame, ∃ t, answerFrame frame s = .next t := fun frame => by unfold answerFrame; split <;> simp
  have sent : ∀ frame, ∃ t, sendFrame frame s = .next t := fun frame => by unfold sendFrame; split <;> simp
  cases i with
  | encSop ch out speed => exact answered _
  | encCd ch cmdR cmdB => exact answered _
  | encCp ch spdR spdB => exact answered _
  | txInit => simp only [exec, execTxInit]; split <;> simp
  | txSend f => exact sent _
  | frameSop ch out n3 lrc => exact sent _
  | frameCd ch cmdB cmdR lrc => exact sent _
  | frameCp ch n2 n3 lrc => exact sent _

/-! ### The sequencer -/

/-- A Transmitter step: blocked or nothing to do, a call made, or the silent step. -/
theorem txStep_next {c : Config} {clock : Word32} {s t : State} (h : txStep c clock s = .next t) :
    t = s ∨
    (s.outstanding = none ∧ s.st.busy = true ∧
      ((∃ e, nextCall c clock s = .ok (some e) ∧ t = makeCall e s) ∨
        (nextCall c clock s = .ok none ∧ t = dummyStep s))) := by
  unfold txStep at h
  split at h
  · cases h; exact .inl rfl
  · next ho =>
    split at h
    · next hb =>
      refine .inr ⟨by simpa using ho, hb, ?_⟩
      split at h
      · next e he => cases h; exact .inl ⟨e, he, rfl⟩
      · next he => cases h; exact .inr ⟨he, rfl⟩
      · cases h
    · cases h; exact .inl rfl

/-- A return: ignored, the sequencer moves on, or `HW_ERROR`. -/
theorem hwReturn_next {c : Config} {err : Option HwErr} {s t : State} (h : hwReturn c err s = .next t) :
    (s.outstanding = none ∧ t = s) ∨
    (∃ e, s.outstanding = some e ∧
      ((err = none ∧ afterReturn c e (endCall s) = .ok t) ∨
        (∃ x, err = some x ∧ takeHwError e x s = .ok t))) := by
  unfold hwReturn at h
  split at h
  · next ho => cases h; exact .inl ⟨ho, rfl⟩
  · next e ho =>
    refine .inr ⟨e, ho, ?_⟩
    split at h
    · exact .inl ⟨rfl, toResult_next h⟩
    · next x => exact .inr ⟨x, rfl, toResult_next h⟩

/-- `HW_ERROR` is taken only with an operation in flight, and is charged to it. -/
theorem takeHwError_ok {e : Event} {x : HwErr} {s t : State} (h : takeHwError e x s = .ok t) :
    s.st.busy = true ∧ ∃ w,
      ((s.st = .calibrating ∧ w = initWord) ∨ (s.st = .transmitting ∧ ∃ f, s.f = .written f ∧ w = sendWord f)) ∧
      t = raiseFault .hwError w { blurLevel e (endCall s) with hwErr := .written x } := by
  unfold takeHwError at h
  split at h
  · next w hw =>
    cases h
    unfold inFlightWord at hw
    split at hw
    · next hs => cases hw; exact ⟨by simp [hs, St.busy], _, .inl ⟨hs, rfl⟩, rfl⟩
    · next hs =>
      obtain ⟨f, hf, h2⟩ := needReg_ok hw
      cases h2
      exact ⟨by simp [hs, St.busy], _, .inr ⟨hs, f, hf, rfl⟩, rfl⟩
    · cases hw
    · cases hw
    · cases hw
  · cases h

/-- Only an operation in flight names a call. -/
theorem nextCall_ok {c : Config} {clock : Word32} {s : State} {o : Option Event}
    (h : nextCall c clock s = .ok o) :
    (s.st = .calibrating ∧ s.phase = .cal ∧ ∃ k, s.calStep = .written k ∧ o = calCall c clock k) ∨
    (s.st = .transmitting ∧ s.phase = .markOn ∧ o = some (.level .active)) ∨
    (s.st = .transmitting ∧ s.phase = .markWait ∧ ∃ w, s.wawe = .written w ∧ o = some (.sleep (markSleep c.markUs w))) ∨
    (s.st = .transmitting ∧ s.phase = .spaceOn ∧ o = some (.level .inactive)) ∨
    (s.st = .transmitting ∧ s.phase = .spaceWait ∧ ∃ y f w m p, s.sym = .written y ∧ s.f = .written f ∧ s.wawe = .written w ∧
      s.mpe = .written m ∧ pauseOf c y f = some p ∧ o = some (.sleep (pauseSleep p w m))) ∨
    (s.st = .transmitting ∧ s.phase = .gap ∧ ∃ r n, s.rep = .written r ∧ s.ch = .written n ∧
      o = some (.sleep (gap c r n))) := by
  unfold nextCall at h
  split at h
  · next hs hp =>
    obtain ⟨k, hk, h2⟩ := needReg_ok h
    cases h2; exact .inl ⟨hs, hp, k, hk, rfl⟩
  · next hs hp => cases h; exact .inr (.inl ⟨hs, hp, rfl⟩)
  · next hs hp =>
    obtain ⟨w, hw, h2⟩ := needReg_ok h
    cases h2; exact .inr (.inr (.inl ⟨hs, hp, w, hw, rfl⟩))
  · next hs hp => cases h; exact .inr (.inr (.inr (.inl ⟨hs, hp, rfl⟩)))
  · next hs hp =>
    unfold pauseCall at h
    obtain ⟨y, hy, h⟩ := needReg_ok h
    obtain ⟨f, hf, h⟩ := needReg_ok h
    obtain ⟨w, hw, h⟩ := needReg_ok h
    obtain ⟨m, hm, h⟩ := needReg_ok h
    split at h
    · next p hpp => cases h; exact .inr (.inr (.inr (.inr (.inl ⟨hs, hp, y, f, w, m, p, hy, hf, hw, hm, hpp, rfl⟩))))
    · cases h
  · next hs hp =>
    obtain ⟨r, hr, h⟩ := needReg_ok h
    obtain ⟨n, hn, h⟩ := needReg_ok h
    cases h; exact .inr (.inr (.inr (.inr (.inr ⟨hs, hp, r, n, hr, hn, rfl⟩))))
  · cases h

/-- What a calibration return writes: the position, and the register of its sub-step (R79). -/
theorem afterCal_ok {c : Config} {e : Event} {k : CalStep} {s t : State} (h : afterCal c e k s = .ok t) :
    (k = .cLow ∧ t = { s with calStep := .written .cCarrier }) ∨
    (k = .cCarrier ∧ t = { s with calStep := .written .cT0 }) ∨
    (k = .cT0 ∧ ∃ x, e = .now x ∧ t = { s with t0 := .written x, calI := .written 0, calStep := .written .cAct }) ∨
    (k = .cAct ∧ t = { s with calStep := .written .cSlp }) ∨
    (k = .cSlp ∧ ∃ n, s.calI = .written n ∧
      t = { s with calI := .written (n + 1), calStep := .written (if (n + 1).toNat < c.calIter then .cAct else .cT1) }) ∨
    (k = .cT1 ∧ ∃ x a, e = .now x ∧ s.t0 = .written a ∧
      t = { s with
        t1 := .written x
        wawe := .written (waweOf c a x)
        calStep := .written (if c.calEndInactive then .cInact else .cT2) }) ∨
    (k = .cInact ∧ t = { s with calStep := .written .cT2 }) ∨
    (k = .cT2 ∧ ∃ x, e = .now x ∧ t = { s with t2 := .written x, calStep := .written .cDummy }) ∨
    (k = .cT3 ∧ ∃ x a, e = .now x ∧ s.t2 = .written a ∧
      t = { s with t3 := .written x, mpe := .written (mpeOf c a x), calStep := .written .cSettle }) ∨
    (k = .cSettle ∧ t = complete s) := by
  unfold afterCal at h
  split at h
  · cases h; simp
  · cases h; simp
  · cases h; simp
  · cases h; simp
  · obtain ⟨n, hn, h⟩ := needReg_ok h
    cases h; simp [hn]
  · obtain ⟨a, ha, h⟩ := needReg_ok h
    cases h; simp [ha]
  · cases h; simp
  · cases h; simp
  · obtain ⟨a, ha, h⟩ := needReg_ok h
    cases h; simp [ha]
  · cases h; simp
  · cases h

/-- What a return does: a calibration sub-step's writes, or the sequencer's move through a symbol and a repetition. -/
theorem afterReturn_ok {c : Config} {e : Event} {s t : State} (h : afterReturn c e s = .ok t) :
    (s.st = .calibrating ∧ s.phase = .cal ∧ ∃ k, s.calStep = .written k ∧ afterCal c e k s = .ok t) ∨
    (s.st = .transmitting ∧ s.phase = .markOn ∧ t = { s with phase := .markWait }) ∨
    (s.st = .transmitting ∧ s.phase = .markWait ∧ t = { s with phase := .spaceOn }) ∨
    (s.st = .transmitting ∧ s.phase = .spaceOn ∧ t = { s with phase := .spaceWait }) ∨
    (s.st = .transmitting ∧ s.phase = .spaceWait ∧ ∃ y, s.sym = .written y ∧
      ((y < 17 ∧ t = { s with sym := .written (y + 1), phase := .markOn }) ∨ (¬y < 17 ∧ t = { s with phase := .gap }))) ∨
    (s.st = .transmitting ∧ s.phase = .gap ∧ ∃ r, s.rep = .written r ∧
      (((r + 1).toNat < c.repeats ∧ t = { s with rep := .written (r + 1), sym := .written 0, phase := .markOn }) ∨
        (¬(r + 1).toNat < c.repeats ∧ t = complete { s with rep := .written (r + 1) }))) := by
  unfold afterReturn at h
  split at h
  · next hs hp =>
    obtain ⟨k, hk, h⟩ := needReg_ok h
    exact .inl ⟨hs, hp, k, hk, h⟩
  · next hs hp => cases h; exact .inr (.inl ⟨hs, hp, rfl⟩)
  · next hs hp => cases h; exact .inr (.inr (.inl ⟨hs, hp, rfl⟩))
  · next hs hp => cases h; exact .inr (.inr (.inr (.inl ⟨hs, hp, rfl⟩)))
  · next hs hp =>
    unfold afterPause at h
    obtain ⟨y, hy, h⟩ := needReg_ok h
    refine .inr (.inr (.inr (.inr (.inl ⟨hs, hp, y, hy, ?_⟩))))
    split at h
    · next hl => cases h; exact .inl ⟨hl, rfl⟩
    · next hl => cases h; exact .inr ⟨hl, rfl⟩
  · next hs hp =>
    unfold afterGap at h
    obtain ⟨r, hr, h⟩ := needReg_ok h
    refine .inr (.inr (.inr (.inr (.inr ⟨hs, hp, r, hr, ?_⟩))))
    split at h
    · next hl => cases h; exact .inl ⟨hl, rfl⟩
    · next hl => cases h; exact .inr ⟨hl, rfl⟩
  · cases h

/-! ### Turns and steps -/

/-- The instruction that a frame decodes to sends that frame. -/
theorem exec_decodeFrame (f : Frame) (s : State) : exec (decodeFrame f) s = sendFrame f s := by
  rcases decodeFrame_cases f with ⟨h, hd⟩ | ⟨h, hd⟩ | ⟨h, hd⟩ | hd <;> rw [hd]
  · exact congrArg (sendFrame · s) (frameSopBits_of_fits h)
  · exact congrArg (sendFrame · s) (frameCdBits_of_fits h)
  · exact congrArg (sendFrame · s) (frameCpBits_of_fits h)
  · rfl

/-- A word on the request port runs its instruction, or raises `ILLEGAL_REQUEST`, or is not taken in `FAULTED`. -/
theorem portTurn_next {w : Word32} {s t : State} (h : portTurn w s = .next t) :
    (∃ i, decodeRequest w = .ok i ∧ exec i s = .next t) ∨
    (∃ e, decodeRequest w = .error e ∧
      ((s.st = .faulted ∧ t = s) ∨ (s.st ≠ .faulted ∧ t = raiseFault .illegalRequest w s))) := by
  unfold portTurn at h
  split at h
  · next i hi => exact .inl ⟨i, hi, h⟩
  · next e he =>
    refine .inr ⟨e, he, ?_⟩
    unfold illegalWord at h
    split at h
    · next hf => cases h; exact .inl ⟨hf, rfl⟩
    · next hf => cases h; exact .inr ⟨hf, rfl⟩

/-- A word on the request port always gives a next state. -/
theorem portTurn_isNext (w : Word32) (s : State) : ∃ t, portTurn w s = .next t := by
  unfold portTurn
  split
  · exact exec_isNext _ s
  · unfold illegalWord; split <;> simp

/-- Everything a step can do: one event, in the state with that event taken off the script; with an empty script, a move
of the HardwareChannel or the Transmitter with free values. -/
theorem stepUnder_next {c : Config} {s t : State} (h : stepUnder c s = .next t) :
    (∃ turn rest, s.script = turn :: rest ∧ takeTurn c turn (setScript rest s) = .next t) ∨
    (s.script = [] ∧
      ((∃ err, hwReturn c err (nextDraw s) = .next t) ∨ (∃ clock, txStep c clock (nextDraw s) = .next t) ∨
        (s.outstanding = none ∧ s.st.busy = false ∧ t = lateReturn s))) := by
  unfold stepUnder at h
  split at h
  · next hs =>
    refine .inr ⟨hs, ?_⟩
    unfold idleTurn at h
    split at h
    · exact .inl ⟨_, h⟩
    · next ho =>
      split at h
      · exact .inr (.inl ⟨_, h⟩)
      · next hb => cases h; exact .inr (.inr ⟨by simpa using ho, by simpa using hb, rfl⟩)
  · next turn rest hs => exact .inl ⟨turn, rest, hs, h⟩

/-- `u` is `s` but for the script and the free-value counter. -/
def SameCore (s u : State) : Prop := u = { s with script := u.script, draws := u.draws }

theorem setScript_same (ts : List Turn) (s : State) : SameCore s (setScript ts s) := rfl

theorem nextDraw_same (s : State) : SameCore s (nextDraw s) := rfl

/-- Everything the machine can do in state `u` but reset: the moves that `step_act` says a step is one of. -/
inductive Act (c : Config) (u : State) : State → Prop
  | stay : Act c u u
  | answer (frame : Frame) : u.st ≠ .faulted → Act c u (respond (frame.setWidth 32) (accept u))
  | startCal : u.st = .uninit → Act c u (startCalibration (accept u))
  | send (frame : Frame) : u.st = .calibrated → Act c u (startSend frame (accept u))
  | requestFault (code : FaultCode) (w : Word32) : u.st ≠ .faulted → code ≠ .noFault → code ≠ .hwError →
      Act c u (raiseFault code w u)
  | call (e : Event) (clock : Word32) : u.outstanding = none → u.st.busy = true →
      nextCall c clock u = .ok (some e) → Act c u (makeCall e u)
  | dummy (clock : Word32) : u.outstanding = none → u.st.busy = true → nextCall c clock u = .ok none →
      Act c u (dummyStep u)
  | returned (e : Event) {t : State} : u.outstanding = some e → afterReturn c e (endCall u) = .ok t → Act c u t
  | hwError (e : Event) (x : HwErr) (w : Word32) : u.outstanding = some e → u.st.busy = true →
      Act c u (raiseFault .hwError w { blurLevel e (endCall u) with hwErr := .written x })
  | late : Act c u (lateReturn u)

theorem ExecMove.act {c : Config} {s t : State} (h : ExecMove s t) : Act c s t := by
  cases h with
  | untaken _ => exact .stay
  | answer frame h => exact .answer frame h
  | startCal h => exact .startCal h
  | send frame h => exact .send frame h
  | fault code w hs hc =>
    exact .requestFault code w hs (by rcases hc with hc | hc | hc <;> simp [hc]) (by rcases hc with hc | hc | hc <;> simp [hc])

theorem portTurn_act {c : Config} {w : Word32} {s t : State} (h : portTurn w s = .next t) : Act c s t := by
  rcases portTurn_next h with ⟨i, -, h⟩ | ⟨e, -, ⟨-, rfl⟩ | ⟨hs, rfl⟩⟩
  · exact (exec_next h).act
  · exact .stay
  · exact .requestFault _ _ hs (by simp) (by simp)

theorem txStep_act {c : Config} {clock : Word32} {s t : State} (h : txStep c clock s = .next t) : Act c s t := by
  rcases txStep_next h with rfl | ⟨ho, hb, ⟨e, he, rfl⟩ | ⟨he, rfl⟩⟩
  · exact .stay
  · exact .call e clock ho hb he
  · exact .dummy clock ho hb he

theorem hwReturn_act {c : Config} {err : Option HwErr} {s t : State} (h : hwReturn c err s = .next t) : Act c s t := by
  rcases hwReturn_next h with ⟨-, rfl⟩ | ⟨e, ho, ⟨-, h⟩ | ⟨x, -, h⟩⟩
  · exact .stay
  · exact .returned e ho h
  · obtain ⟨hb, w, -, rfl⟩ := takeHwError_ok h
    exact .hwError e x w ho hb

/-- A step is a reset, or one of the moves of `Act` in a state that differs from `s` in the script and the free-value
counter only. -/
theorem stepUnder_act {c : Config} {s t : State} (h : stepUnder c s = .next t) :
    (∃ rest, s.script = .reset :: rest ∧ t = resetCore (setScript rest s)) ∨ (∃ u, SameCore s u ∧ Act c u t) := by
  rcases stepUnder_next h with ⟨turn, rest, hs, h⟩ | ⟨-, ⟨err, h⟩ | ⟨clock, h⟩ | ⟨-, -, rfl⟩⟩
  · cases turn with
    | port p => exact .inr ⟨_, setScript_same rest s, portTurn_act h⟩
    | reset => cases h; exact .inl ⟨rest, hs, rfl⟩
    | txStep clock => exact .inr ⟨_, setScript_same rest s, txStep_act h⟩
    | hwReturn err => exact .inr ⟨_, setScript_same rest s, hwReturn_act h⟩
    | lateReturn => cases h; exact .inr ⟨_, setScript_same rest s, .late⟩
  · exact .inr ⟨_, nextDraw_same s, hwReturn_act h⟩
  · exact .inr ⟨_, nextDraw_same s, txStep_act h⟩
  · exact .inr ⟨s, rfl, .late⟩

/-- A failed `SetLevel` frees `out_level`; nothing else of the state is touched but the free-value counter (log 8). -/
theorem blurLevel_frame (e : Event) (s : State) :
    blurLevel e s = { s with outLevel := (blurLevel e s).outLevel, draws := (blurLevel e s).draws } := by
  cases e <;> rfl

/-- A step whose next event is a request word. -/
theorem step_port {s : State} {w : Word32} {rest : List Turn} (h : s.script = .port w :: rest) :
    step s = portTurn w (setScript rest s) := by
  simp [step, stepUnder, h, takeTurn]

/-- A step whose next event is a Transmitter step. -/
theorem step_txStep {s : State} {clock : Word32} {rest : List Turn} (h : s.script = .txStep clock :: rest) :
    step s = txStep Config.std clock (setScript rest s) := by
  simp [step, stepUnder, h, takeTurn]

/-- A step whose next event is a return. -/
theorem step_hwReturn {s : State} {err : Option HwErr} {rest : List Turn} (h : s.script = .hwReturn err :: rest) :
    step s = hwReturn Config.std err (setScript rest s) := by
  simp [step, stepUnder, h, takeTurn]

/-- A step whose next event is a reset. -/
theorem step_reset {s : State} {rest : List Turn} (h : s.script = .reset :: rest) :
    step s = .next (resetCore (setScript rest s)) := by
  simp [step, stepUnder, h, takeTurn]

/-- A step whose next event is the return of an abandoned call. -/
theorem step_lateReturn {s : State} {rest : List Turn} (h : s.script = .lateReturn :: rest) :
    step s = .next (lateReturn (setScript rest s)) := by
  simp [step, stepUnder, h, takeTurn]

end Sys2Proof.Machine
end

