-- ==== Sys2Proof/Laws/Invariant.lean ====
section
/-! SUPPORT. Which fields the parts of the invariant read, and what the side port shows. -/

namespace Sys2Proof.Machine

/-- An operation is in flight in `CALIBRATING` and `TRANSMITTING`. -/
theorem St.busy_iff (x : St) : x.busy = true ↔ x = .calibrating ∨ x = .transmitting := by cases x <;> simp [St.busy]

@[simp] theorem sidePort_written {α : Type} (a free : α) : sidePort (.written a) free = a := rfl

@[simp] theorem sidePort_fresh {α : Type} (a free : α) : sidePort (.fresh a) free = free := rfl

/-- The next call depends on the sequencer position, the profile, the frame and its channel only. -/
theorem nextCall_congr (c : Config) (clock : Word32) {s t : State} (st : t.st = s.st) (phase : t.phase = s.phase)
    (step : t.calStep = s.calStep) (wawe : t.wawe = s.wawe) (mpe : t.mpe = s.mpe) (f : t.f = s.f) (sym : t.sym = s.sym)
    (rep : t.rep = s.rep) (ch : t.ch = s.ch) : nextCall c clock t = nextCall c clock s := by
  simp only [nextCall, pauseCall, st, phase, step, wawe, mpe, f, sym, rep, ch]

/-- `RegsOk` reads the calibration, clock, profile and transmission registers only. -/
theorem RegsOk.congr {s t : State} (h : RegsOk s) (step : t.calStep = s.calStep) (count : t.calI = s.calI)
    (t0 : t.t0 = s.t0) (t1 : t.t1 = s.t1) (t2 : t.t2 = s.t2) (t3 : t.t3 = s.t3) (wawe : t.wawe = s.wawe)
    (mpe : t.mpe = s.mpe) (f : t.f = s.f) (ch : t.ch = s.ch) (rep : t.rep = s.rep) (sym : t.sym = s.sym) : RegsOk t := by
  constructor <;> simp only [step, count, t0, t1, t2, t3, wawe, mpe, f, ch, rep, sym]
  exacts [h.position, h.t0, h.t1, h.t2, h.t3, h.wawe, h.mpe, h.waweValue, h.mpeValue, h.frame, h.channel, h.channelValue, h.rep, h.sym]

/-- A state that differs in the script and the free-value counter has the same registers. -/
theorem SameCore.regsOk {s u : State} (h : SameCore s u) (hr : RegsOk s) : RegsOk u := by
  rw [h]
  exact hr.congr rfl rfl rfl rfl rfl rfl rfl rfl rfl rfl rfl rfl

end Sys2Proof.Machine
end

