-- ==== Sys2Proof/Laws/PerInstr.lean ====
section
/-! SUPPORT. Statements made per instruction: the word of every instruction has the fixed bits of its table row. -/

namespace Sys2Proof.Laws.MatchesRow

/-- The encoding of `i` has the `match` bits of its row of spec/opcode_table.json under the row's `mask`. -/
def Statement (i : Instr) : Prop :=
  match i with
  | .encSop ch out speed => ∃ w, encode (.encSop ch out speed) = .request w ∧ rowEncSop.Fits w
  | .encCd ch cmdR cmdB => ∃ w, encode (.encCd ch cmdR cmdB) = .request w ∧ rowEncCd.Fits w
  | .encCp ch spdR spdB => ∃ w, encode (.encCp ch spdR spdB) = .request w ∧ rowEncCp.Fits w
  | .txInit => ∃ w, encode .txInit = .request w ∧ rowTxInit.Fits w
  | .txSend f => ∃ w, encode (.txSend f) = .request w ∧ rowTxSend.Fits w
  | .frameSop ch out n3 lrc => ∃ f, encode (.frameSop ch out n3 lrc) = .frame f ∧ rowFrameSop.Fits f
  | .frameCd ch cmdB cmdR lrc => ∃ f, encode (.frameCd ch cmdB cmdR lrc) = .frame f ∧ rowFrameCd.Fits f
  | .frameCp ch n2 n3 lrc => ∃ f, encode (.frameCp ch n2 n3 lrc) = .frame f ∧ rowFrameCp.Fits f

/-- Bit `k` of a masked word. -/
theorem fits_of_bits {n : Nat} {r : FixedBits n} {w : BitVec n}
    (h : ∀ k, k < n → (w.getLsbD k && r.mask.getLsbD k) = r.pattern.getLsbD k) : r.Fits w :=
  BitVec.eq_of_getLsbD_eq fun k hk => by rw [BitVec.getLsbD_and]; exact h k hk

theorem encSop (ch : BitVec 2) (out : Output) (speed : Int) : Statement (.encSop ch out speed) := by
  refine ⟨_, rfl, fits_of_bits fun k hk => ?_⟩
  simp only [BitVec.getLsbD_append, rowEncSop]
  interval_cases k <;> simp

theorem encCd (ch : BitVec 2) (cmdR cmdB : Command) : Statement (.encCd ch cmdR cmdB) := by
  refine ⟨_, rfl, fits_of_bits fun k hk => ?_⟩
  simp only [BitVec.getLsbD_append, rowEncCd]
  interval_cases k <;> simp

theorem encCp (ch : BitVec 2) (spdR spdB : Int) : Statement (.encCp ch spdR spdB) := by
  refine ⟨_, rfl, fits_of_bits fun k hk => ?_⟩
  simp only [BitVec.getLsbD_append, rowEncCp]
  interval_cases k <;> simp

theorem txInit : Statement .txInit := by
  exact ⟨initWord, rfl, by decide⟩

theorem txSend (f : Frame) : Statement (.txSend f) := by
  refine ⟨_, rfl, fits_of_bits fun k hk => ?_⟩
  simp only [sendWord, BitVec.getLsbD_append, rowTxSend]
  interval_cases k <;> simp

theorem frameSop (ch : BitVec 2) (out : Output) (n3 lrc : Nibble) : Statement (.frameSop ch out n3 lrc) := by
  refine ⟨_, rfl, fits_of_bits fun k hk => ?_⟩
  simp only [frameSopBits, BitVec.getLsbD_append, rowFrameSop]
  interval_cases k <;> simp

theorem frameCd (ch : BitVec 2) (cmdB cmdR : Command) (lrc : Nibble) : Statement (.frameCd ch cmdB cmdR lrc) := by
  refine ⟨_, rfl, fits_of_bits fun k hk => ?_⟩
  simp only [frameCdBits, BitVec.getLsbD_append, rowFrameCd]
  interval_cases k <;> simp

theorem frameCp (ch : BitVec 2) (n2 n3 lrc : Nibble) : Statement (.frameCp ch n2 n3 lrc) := by
  refine ⟨_, rfl, fits_of_bits fun k hk => ?_⟩
  simp only [frameCpBits, BitVec.getLsbD_append, rowFrameCp]
  interval_cases k <;> simp

end Sys2Proof.Laws.MatchesRow
end

