-- ==== Sys2Proof/Laws/Runs.lean ====
section
/-! SUPPORT. Runs of several steps: composition, and a HardwareChannel call with its return. -/

namespace Sys2Proof.Machine

/-- `n` steps of the IR core with the parameters `c`, over `State` itself. -/
def runUnder (c : Config) (n : Nat) (s : State) : Result := (coreUnder c).run n s

/-- The machine's own run is the run at the default parameters. -/
theorem core_run (n : Nat) (s : State) : Sys2Proof.core.run n s = runUnder Config.std n s := rfl

@[simp] theorem runUnder_zero (c : Config) (s : State) : runUnder c 0 s = .next s := rfl

/-- One step, then the rest. -/
theorem runUnder_succ {c : Config} {s t : State} (n : Nat) (h : stepUnder c s = .next t) :
    runUnder c (n + 1) s = runUnder c n t := by
  simp only [runUnder, coreUnder, Host.Core.run]
  rw [h]

/-- Runs compose. -/
theorem runUnder_add {c : Config} {s t : State} (n m : Nat) (h : runUnder c n s = .next t) :
    runUnder c (n + m) s = runUnder c m t := by
  induction n generalizing s with
  | zero => cases h; simp
  | succ n ih =>
    rw [Nat.add_right_comm]
    cases hs : stepUnder c s with
    | next u => rw [runUnder_succ _ hs] at h ⊢; exact ih h
    | fault r => simp only [runUnder, coreUnder, Host.Core.run] at h; rw [hs] at h; cases h
    | refused r => simp only [runUnder, coreUnder, Host.Core.run] at h; rw [hs] at h; cases h

/-- The Transmitter makes the call its position names, and the call returns without an error: two steps. -/
theorem call_and_return {c : Config} {s t : State} {clock : Word32} {e : Event} {rest : List Turn}
    (hscript : s.script = .txStep clock :: .hwReturn none :: rest) (hnone : s.outstanding = none)
    (hbusy : s.st.busy = true) (hcall : nextCall c clock s = .ok (some e))
    (hreturn : afterReturn c e { s with script := rest, trace := s.trace ++ [e], outLevel := e.shadow s.outLevel } = .ok t) :
    runUnder c 2 s = .next t := by
  have hcall' : nextCall c clock (setScript (.hwReturn none :: rest) s) = .ok (some e) := hcall
  have first : stepUnder c s = .next (makeCall e (setScript (.hwReturn none :: rest) s)) := by
    unfold stepUnder
    rw [hscript]
    simp [takeTurn, txStep, hnone, hbusy, hcall']
  have ended : endCall (setScript rest (makeCall e (setScript (.hwReturn none :: rest) s)))
      = { s with script := rest, trace := s.trace ++ [e], outLevel := e.shadow s.outLevel } := by
    cases s; cases hnone; rfl
  have second : stepUnder c (makeCall e (setScript (.hwReturn none :: rest) s)) = .next t := by
    unfold stepUnder
    simp only [makeCall_script, setScript_script, takeTurn, hwReturn, setScript_outstanding, makeCall_outstanding]
    rw [ended, hreturn]
    rfl
  rw [runUnder_succ 1 first, runUnder_succ 0 second]
  rfl

theorem calls_nil : calls [] = [] := rfl

theorem calls_cons (k : Word32) (ks : List Word32) : calls (k :: ks) = .txStep k :: .hwReturn none :: calls ks := rfl

theorem calls_append (xs ys : List Word32) : calls (xs ++ ys) = calls xs ++ calls ys := by simp [calls]

end Sys2Proof.Machine
end

