-- ==== Sys2Proof/Tests/Slice0.lean ====
section
/-! SUPPORT. The model's own tests. Expected values are from spec/95_test_vectors.md or worked out by hand from the rule
named; the witnesses show that the hypotheses of each statement can be met. -/

namespace Sys2Proof.Tests

open Sys2Proof.Machine

/-! ### Well-formedness refuses what no field can carry (R64: `speed` = 200 is an assembly error) -/

theorem test_wf_refuses_sop_speed_above : (Instr.encSop 0 .red 200).wf = false := by decide
theorem test_wf_refuses_sop_speed_below : (Instr.encSop 0 .red (-129)).wf = false := by decide
theorem test_wf_refuses_cp_red_speed : (Instr.encCp 0 128 0).wf = false := by decide
theorem test_wf_refuses_cp_blue_speed : (Instr.encCp 0 0 (-200)).wf = false := by decide
theorem test_wf_accepts_the_range_ends : (Instr.encCp 3 (-128) 127).wf = true := by decide

/-! ### Decoding: words written out from the layouts of R53 to R56 and R60; expected results from section 2.6 -/

theorem test_decode_sop : decodeTableWord 32 0b00010000000000000000000011111111 = some (.encSop 0 .red (-1)) := by decide
theorem test_decode_cd : decodeTableWord 32 0b00100000000000000000001100000011 = some (.encCd 0 .brake .brake) := by decide
theorem test_decode_cp : decodeTableWord 32 0b00110011000000001111100100001001 = some (.encCp 3 (-7) 9) := by decide
theorem test_decode_init : decodeTableWord 32 0b10000000000000000000000000000000 = some .txInit := by decide
theorem test_decode_send : decodeTableWord 32 0b10010000000000001111111111111111 = some (.txSend 0xFFFF) := by decide
/-- The frame of `enc.sop 3, blue, 7` (section 2.3). -/
theorem test_decode_frame_sop : decodeTableWord 16 0x357E = some (.frameSop 3 .blue 0x7 0xE) := by decide
/-- The frame of `enc.cd 0, fwd, bwd` (section 2.4). -/
theorem test_decode_frame_cd : decodeTableWord 16 0x0197 = some (.frameCd 0 .backward .forward 0x7) := by decide
/-- The frame of `enc.cp 2, -1, 1` (section 2.5). -/
theorem test_decode_frame_cp : decodeTableWord 16 0x61F7 = some (.frameCp 2 0x1 0xF 0x7) := by decide
/-- A frame of no variant is sent as it is (R61). -/
theorem test_decode_frame_of_no_variant : decodeTableWord 16 0xF000 = some (.txSend 0xF000) := by decide
/-- The illegal words of section 2.6. -/
theorem test_decode_illegal : ([0x00000000, 0x04000000, 0x7FFFFFFF, 0xF0000000, 0x10000100, 0x20000400, 0x30FF0000,
    0x80000001, 0x9001047C].map (decodeTableWord 32)).all Option.isNone = true := by decide

/-! ### States the tests start from -/

/-- The state after a step, if the step gives one. -/
def after : Result → Option State
  | .next s => some s
  | .fault _ => none
  | .refused _ => none

/-- Reset, with the events that come next. -/
def start (turns : List Turn) : State := setScript turns State.reset

/-- `CALIBRATING` at sub-step `k`, with the clock readings that a later sub-step reads already written. -/
def calibratingAt (k : CalStep) (call : Option Event) (turns : List Turn) : State :=
  { State.reset with
    st := .calibrating, phase := .cal, calStep := .written k, calI := .written 0, t0 := .written 1000, t2 := .written 1100
    outstanding := call, accepted := 1, script := turns }

/-- `CALIBRATED` with the profile of program P1. -/
def calibrated (turns : List Turn) : State :=
  { State.reset with
    st := .calibrated, calStep := .written .cSettle, calI := .written 8, t0 := .written 1000, t1 := .written 1096, t2 := .written 1100
    t3 := .written 1180, wawe := .written 12, mpe := .written 5, outLevel := .known .inactive, responses := [0], accepted := 1
    script := turns }

/-- `TRANSMITTING` the frame `0x047C` of program P1. -/
def sending (p : Phase) (r : BitVec 3) (y : BitVec 5) (call : Option Event) (turns : List Turn) : State :=
  { calibrated turns with
    st := .transmitting, phase := p, f := .written 0x047C, ch := .written 1, rep := .written r, sym := .written y
    outstanding := call, outLevel := .known (txLevel p), accepted := 2 }

/-- `FAULTED` by an illegal word. -/
def faulted (turns : List Turn) : State :=
  { State.reset with st := .faulted, faultCode := .illegalRequest, faultReq := .written 0xF0000000, script := turns }

/-! ### One step of each instruction (sections 2.3 to 2.7) -/

theorem test_sop_answer : (after (exec (.encSop 0 .blue (-7)) State.reset)).map State.responses = some [0x0593] := by decide
theorem test_sop_float : (after (exec (.encSop 2 .red (-8)) State.reset)).map State.responses = some [0x2409] := by decide
theorem test_cd_answer : (after (exec (.encCd 0 .forward .backward) State.reset)).map State.responses = some [0x0197] := by
  decide
theorem test_cd_brake : (after (exec (.encCd 2 .brake .float) State.reset)).map State.responses = some [0x213F] := by decide
theorem test_cp_answer : (after (exec (.encCp 1 7 (-7)) State.reset)).map State.responses = some [0x5974] := by decide
theorem test_cp_not_taken_in_faulted : after (exec (.encCp 0 8 0) (faulted [])) = some (faulted []) := by decide
theorem test_init_accepted : (after (exec .txInit State.reset)).map statusWord = some 0x00000001 := by decide
theorem test_init_twice : (after (exec .txInit (calibrated []))).map statusWord = some 0x0000014C := by decide
theorem test_send_accepted : (after (exec (.txSend 0x047C) (calibrated []))).map statusWord = some 0x00000103 := by decide
theorem test_send_busy :
    (after (exec (.txSend 0x0197) (sending .markOn 0 0 none []))).map statusWord = some 0x0000013C := by decide
theorem test_send_not_calibrated : (after (exec (.txSend 0x047C) State.reset)).map statusWord = some 0x0000002C := by decide
theorem test_frame_sop_sent : (after (exec (.frameSop 0 .red 0x7 0xC) (calibrated []))).map State.f = some (.written 0x047C) := by
  decide
theorem test_frame_cd_sent : (after (exec (.frameCd 0 .backward .forward 7) (calibrated []))).map State.f
    = some (.written 0x0197) := by decide
theorem test_frame_cp_channel : (after (exec (.frameCp 3 0 0xD 5) (calibrated []))).map State.ch = some (.written 4) := by decide
/-- `STATUS` by R30 and R106: `st` 4, FAULT, code 5, CAL_VALID. -/
theorem test_hw_error_status :
    statusWord { calibrated [] with st := .faulted, faultCode := .hwError } = 0x0000015C := by decide
theorem test_illegal_word_faults :
    (after (step (start [.port 0xF0000000]))).map statusWord = some 0x0000001C := by decide
theorem test_mid_init_fault_keeps_cal_valid :
    (after (exec .txInit { calibratingAt .cSettle none [] with mpe := .written 5 })).map statusWord = some 0x0000014C := by decide

/-! ### The Transmitter (sections 2.8 to 2.10) -/

theorem test_wawe_of_a_wrapped_clock : waweOf Config.std 0xFFFFFFF0 0x00000010 = 4 := by decide
theorem test_wawe_largest : waweOf Config.std 5 4 = 536870911 := by decide
theorem test_mpe_of_a_clock_going_back : mpeOf Config.std 5 4 = 268435455 := by decide
theorem test_pause_clamped : pauseSleep 263 0 263 = 1 := by decide
theorem test_mark_clamped : markSleep 158 158 = 1 := by decide
theorem test_pause_of_the_first_bit : (after (step (sending .spaceWait 0 1 none [.txStep 0]))).map State.trace
    = some [.sleep 246] := by decide
theorem test_pause_of_a_one_bit : (after (step (sending .spaceWait 0 6 none [.txStep 0]))).map State.trace
    = some [.sleep 536] := by decide
theorem test_last_gap : (after (step (sending .gap 4 17 none [.txStep 0]))).map State.trace = some [.sleep 128000] := by decide
theorem test_cal_effort : (after (step (calibratingAt .cT1 (some (.now 1096)) [.hwReturn none]))).map State.wawe
    = some (.written 12) := by decide
theorem test_empty_script_starts_a_call :
    (after (step (calibratingAt .cLow none []))).map State.trace = some [.level .inactive] := by decide
theorem test_fetched_word_runs : (after (step (State.reset.withFetchWord 32 0x10000007))).map State.responses
    = some [0x047C] := by decide
/-- A 16-bit row runs by its `TX_SEND` word: from reset, `SEND_NOT_CALIBRATED` charged to that word (R39, R107). -/
theorem test_fetched_frame_runs : (after (step (State.reset.withFetchWord 16 0x047C))).map (fun t => (t.faultCode, t.faultReq))
    = some (.sendNotCalibrated, .written 0x9000047C) := by decide
/-- A `SetLevel` that fails leaves `out_level` open, whatever it was (I4, log 8). -/
theorem test_failed_level_is_free (x : HwErr) :
    (after (step (sending .markOn 0 0 (some (.level .active)) [.hwReturn (some x)]))).map State.outLevel
      = some (Config.freeOutLevel 0) := rfl
/-- A register that nothing has written stops the sequencer (R28), whatever value its field holds. -/
theorem test_unwritten_register_stops :
    step { sending .markWait 0 0 none [.txStep 0] with wawe := .fresh 12 } = .fault (.unwritten .wawe) := rfl
/-- Each kind of read of an unwritten register: by a Transmitter step, a return, and a return with an error. -/
theorem witness_unwritten_reads (x : HwErr) :
    step { calibratingAt .cLow none [.txStep 0] with calStep := .fresh .cLow } = .fault (.unwritten .calStep) ∧
    step { sending .spaceWait 0 1 none [.txStep 0] with mpe := .fresh 5 } = .fault (.unwritten .mpe) ∧
    step { sending .gap 4 17 none [.txStep 0] with ch := .fresh 1 } = .fault (.unwritten .ch) ∧
    step { calibratingAt .cSlp (some (.sleep 1)) [.hwReturn none] with calI := .fresh 0 } = .fault (.unwritten .calI) ∧
    step { calibratingAt .cT1 (some (.now 0)) [.hwReturn none] with t0 := .fresh 0 } = .fault (.unwritten .t0) ∧
    step { calibratingAt .cT3 (some (.now 0)) [.hwReturn none] with t2 := .fresh 0 } = .fault (.unwritten .t2) ∧
    step { sending .spaceWait 0 1 (some (.sleep 1)) [.hwReturn none] with sym := .fresh 0 } = .fault (.unwritten .sym) ∧
    step { sending .gap 4 17 (some (.sleep 1)) [.hwReturn none] with rep := .fresh 0 } = .fault (.unwritten .rep) ∧
    step { sending .gap 4 17 (some (.sleep 1)) [.hwReturn (some x)] with f := .fresh 0 } = .fault (.unwritten .f) :=
  ⟨rfl, rfl, rfl, rfl, rfl, rfl, rfl, rfl, rfl⟩

/-- A position that names no call stops the sequencer (R27). -/
theorem test_no_such_position_stops :
    step { calibrated [.txStep 0] with st := .transmitting } = .fault .noSuchPosition := rfl

/-! ### Witnesses: the hypotheses of the statements can be met, at the ends of their ranges -/

theorem witness_pfc : pfc 1 = 0b0001 ∧ pfc 7 = 0b0111 ∧ pfc 0 = 0b1000 ∧ pfc (-1) = 0b1111 ∧ pfc (-7) = 0b1001 ∧
    pfc 8 = 0b0000 ∧ pfc (-8) = 0b0000 ∧ pfc 127 = 0 ∧ pfc (-128) = 0 ∧ (0b0001 : Nibble) ≠ 0 ∧ (0b0001 : Nibble) ≠ 0b1000 := by
  decide

theorem witness_frame_not_packed : nibbleXor 0x0000 ≠ 0xF := by decide

theorem witness_encoder_states : State.reset.st ≠ .faulted ∧ (sending .gap 4 17 none []).st ≠ .faulted ∧
    (faulted []).st = .faulted := by decide

theorem witness_encoder_answers : isEncoder (.encSop 3 .blue 127) = true ∧ isEncoder (.encCd 3 .brake .brake) = true ∧
    isEncoder (.encCp 0 (-128) 0) = true ∧
    (∃ t, exec (.encSop 3 .blue 127) State.reset = .next t) ∧ (∃ t, exec (.encCd 3 .brake .brake) State.reset = .next t) ∧
    (∃ t, exec (.encCp 0 (-128) 0) State.reset = .next t) := by
  exact ⟨rfl, rfl, rfl, ⟨_, rfl⟩, ⟨_, rfl⟩, ⟨_, rfl⟩⟩

theorem witness_illegal_words : IllegalWord 0x00000000 ∧ IllegalWord 0x4FFFFFFF ∧ IllegalWord 0x7FFFFFFF ∧
    IllegalWord 0xA0000000 ∧ IllegalWord 0xF0000000 ∧ IllegalWord 0x10000100 ∧ IllegalWord 0x20000400 ∧
    IllegalWord 0x30FF0000 ∧ IllegalWord 0x80000001 ∧ IllegalWord 0x9001047C ∧
    (start [.port 0x80000001]).script = .port 0x80000001 :: [] := by
  simp [IllegalWord, start, setScript]

theorem witness_legal_words : ¬IllegalWord 0x13010080 ∧ ¬IllegalWord 0x20000303 ∧ ¬IllegalWord 0x3300F909 ∧
    ¬IllegalWord 0x80000000 ∧ ¬IllegalWord 0x9000FFFF ∧
    (0x13010080#32 >>> 28).toNat = 1 ∧ (0x20000303#32 >>> 28).toNat = 2 ∧ (0x3300F909#32 >>> 28).toNat = 3 ∧
    (0x80000000#32 >>> 28).toNat = 8 ∧ (0x9000FFFF#32 >>> 28).toNat = 9 := by
  simp [IllegalWord]

theorem witness_wellFormed : (Instr.encSop 3 .blue (-128)).WellFormed ∧ (Instr.encCp 3 127 (-128)).WellFormed ∧
    Instr.txInit.WellFormed ∧ (Instr.frameCp 3 15 15 15).WellFormed := by decide

theorem witness_frame_variants : (0x047C : Frame) &&& 0xCE00 = 0x0400 ∧ (0x0197 : Frame) &&& 0xCF00 = 0x0100 ∧
    (0x4803 : Frame) &&& 0xC000 = 0x4000 ∧
    ¬((0xF000 : Frame) &&& 0xCE00 = 0x0400 ∨ (0xF000 : Frame) &&& 0xCF00 = 0x0100 ∨ (0xF000 : Frame) &&& 0xC000 = 0x4000) := by
  decide

theorem witness_decodable : decode (.request 0x9000FFFF) = .ok (.txSend 0xFFFF) ∧
    decode (.frame 0x70D5) = .ok (.frameCp 3 0 13 5) ∧ decode (.frame 0xFFFF) = .ok (.txSend 0xFFFF) :=
  ⟨rfl, rfl, rfl⟩

/-- A frame of a variant and one of none, each in the `TX_SEND` word that carries it over the port (R39). -/
theorem witness_frame_on_the_port :
    (start [.port (0x90000000 ||| (0x70D5 : Frame).setWidth 32)]).script = .port 0x900070D5 :: [] ∧
    decode (.frame 0x70D5) = .ok (.frameCp 3 0 13 5) ∧
    (start [.port (0x90000000 ||| (0xFFFF : Frame).setWidth 32)]).script = .port 0x9000FFFF :: [] ∧
    decode (.frame 0xFFFF) = .ok (.txSend 0xFFFF) := ⟨rfl, rfl, rfl, rfl⟩

/-- A word of each operation that the decoder takes (R52). -/
theorem witness_ops : decodeRequest 0x13010080 = .ok (.encSop 3 .blue (-128)) ∧
    decodeRequest 0x20000303 = .ok (.encCd 0 .brake .brake) ∧ decodeRequest 0x3300F909 = .ok (.encCp 3 (-7) 9) ∧
    decodeRequest 0x80000000 = .ok .txInit ∧ decodeRequest 0x9000FFFF = .ok (.txSend 0xFFFF) :=
  ⟨rfl, rfl, rfl, rfl, rfl⟩

theorem witness_port_event : (start [.port 0x80000000]).script = .port 0x80000000 :: [] ∧
    decode (.request 0x80000000) = .ok .txInit ∧ decodeTableWord 32 0x80000000 = some .txInit := ⟨rfl, rfl, rfl⟩

theorem witness_uninit_and_calibrated : State.reset.st = .uninit ∧ (calibrated []).st = .calibrated := by decide

/-- Every state of R107's table, with a word of each kind next. -/
theorem witness_outcome_states :
    (start [.port 0x9000047C]).st = .uninit ∧ (calibratingAt .cLow none [.port 0x80000000]).st = .calibrating
      ∧ (calibrated [.port 0x9000047C]).st = .calibrated
      ∧ (sending .markOn 0 0 none [.port 0x90000197]).st = .transmitting
      ∧ (faulted [.port 0x10000007]).st = .faulted := by decide

/-- A fault of a request, with a call outstanding. -/
theorem witness_request_fault :
    ((after (step (sending .markWait 0 0 (some (.sleep 146)) [.port 0x90000197]))).map fun t =>
      (t.st, t.faultCode, t.abandoned)) = some (.faulted, .sendBusy, [.sleep 146]) := by decide

/-- A fault of an operation in flight: of a calibration and of a transmission. -/
theorem witness_hwError (x : HwErr) :
    ((after (step (calibratingAt .cSlp (some (.sleep 1)) [.hwReturn (some x)]))).map fun t => (t.st, t.faultReq, t.hwErr))
        = some (.faulted, .written 0x80000000, .written x) ∧
    ((after (step (sending .gap 4 17 (some (.sleep 128000)) [.hwReturn (some x)]))).map fun t => (t.st, t.faultReq, t.hwErr))
        = some (.faulted, .written 0x9000047C, .written x) := ⟨rfl, rfl⟩

theorem witness_faulted_is_quiescent : (faulted [.port 0x80000000]).st = .faulted ∧
    (faulted [.port 0x80000000]).outstanding = none ∧
    (∀ rest, (faulted [.port 0x80000000]).script ≠ .reset :: rest) ∧
    (∀ rest, (faulted []).script ≠ .reset :: rest) :=
  ⟨rfl, rfl, fun rest h => (by cases h), fun rest h => (by cases h)⟩

/-- Reset leaves `FAULTED`, and clears a fault and a profile. -/
theorem witness_reset_clears :
    ((after (step { faulted [.reset] with wawe := .written 12, mpe := .written 5 })).map fun t =>
      (t.st, t.faultCode, t.faultReq.isWritten, t.wawe.isWritten, t.mpe.isWritten)) = some (.uninit, .noFault, false, false, false) := rfl

theorem witness_reset_abandons :
    ((after (step (sending .markWait 0 0 (some (.sleep 146)) [.reset, .lateReturn]))).map fun t =>
      (t.abandoned, t.outstanding, t.script)) = some ([.sleep 146], none, [.lateReturn]) := by decide

theorem witness_late_returns : (start [.lateReturn]).script = .lateReturn :: [] ∧
    (start [.hwReturn none]).script = .hwReturn none :: [] ∧ (start [.hwReturn none]).outstanding = none := ⟨rfl, rfl, rfl⟩

theorem witness_status_clauses : (faulted []).st = .faulted ∧ State.reset.st ≠ .faulted ∧
    (faulted []).faultReq = .written 0xF0000000 ∧ (calibrated []).mpe = .written 5 ∧
    ({ faulted [] with faultCode := .hwError, hwErr := .written 0 } : State).hwErr = .written 0 := ⟨rfl, by decide, rfl, rfl, rfl⟩

theorem witness_simultaneous :
    (sending .gap 4 17 (some (.sleep 128000)) [.hwReturn none, .port (sendWord 0x0197)]).script
      = .hwReturn none :: .port (sendWord 0x0197) :: [] ∧
    (sending .gap 4 17 (some (.sleep 128000)) [.port (sendWord 0x0197), .hwReturn none]).script
      = .port (sendWord 0x0197) :: .hwReturn none :: [] ∧
    (sending .gap 4 17 (some (.sleep 128000)) []).phase = .gap ∧
    (sending .gap 4 17 (some (.sleep 128000)) []).outstanding = some (.sleep 128000) ∧
    (sending .gap 4 17 (some (.sleep 128000)) []).rep = .written 4 ∧ (4 : BitVec 3).toNat = 4 := ⟨rfl, rfl, rfl, rfl, rfl, rfl⟩

/-- One step for each allowed transition (R23). -/
theorem witness_transitions :
    (after (step (start [.port 0x80000000]))).map State.st = some .calibrating ∧
    (after (step (calibratingAt .cSettle (some (.sleep 2000)) [.hwReturn none]))).map State.st = some .calibrated ∧
    (after (step (calibrated [.port 0x9000047C]))).map State.st = some .transmitting ∧
    (after (step (sending .gap 4 17 (some (.sleep 128000)) [.hwReturn none]))).map State.st = some .calibrated ∧
    (after (step (calibrated [.port 0xF0000000]))).map State.st = some .faulted ∧
    (after (step (calibrated [.reset]))).map State.st = some .uninit := by decide

theorem witness_profile_fixed : (calibrated []).st = .calibrated ∧ (∀ rest, (calibrated []).script ≠ .reset :: rest) ∧
    step (calibrated []) = .next (lateReturn (calibrated [])) ∧
    (∃ t, step (sending .markOn 0 0 none [.txStep 0]) = .next t) ∧ (∃ t, step (faulted []) = .next t) :=
  ⟨rfl, fun rest h => (by cases h), rfl, ⟨_, rfl⟩, ⟨_, rfl⟩⟩

/-- A transmission goes on, completes, faults, is reset. -/
theorem witness_transmission :
    (after (step (sending .markOn 0 0 none [.txStep 0]))).map State.st = some .transmitting ∧
    ((after (step (sending .gap 4 17 (some (.sleep 128000)) [.hwReturn none]))).map fun t => (t.st, t.responses))
      = some (.calibrated, [0, 0]) ∧
    (after (step (sending .markOn 0 0 none [.port 0x80000000]))).map State.st = some .faulted ∧
    (after (step (sending .markOn 0 0 none [.reset]))).map State.st = some .uninit := by decide

theorem witness_blocked : (sending .markOn 0 0 (some (.level .active)) [.txStep 7]).script = .txStep 7 :: [] ∧
    (sending .markOn 0 0 (some (.level .active)) [.txStep 7]).outstanding = some (.level .active) := ⟨rfl, rfl⟩

/-- The steps that read the clock and configure the carrier. -/
theorem witness_clock_reads :
    (after (step (calibratingAt .cT0 none [.txStep 7]))).map State.trace = some [.now 7] ∧
    (after (step (calibratingAt .cT3 none [.txStep 9]))).map State.trace = some [.now 9] ∧
    (after (step (calibratingAt .cCarrier none [.txStep 0]))).map State.trace = some [.carrier 26] := by decide

/-- A Transmitter step, a return that goes on, and a return that completes. -/
theorem witness_commute : isEncoder (.encCp 0 8 0) = true ∧
    (∃ t, txStep Config.std 0 (sending .markOn 0 0 none []) = .next t) ∧
    (∃ u, exec (.encCp 0 8 0) (sending .markOn 0 0 none []) = .next u) ∧
    (∃ t, hwReturn Config.std none (sending .gap 3 17 (some (.sleep 128000)) []) = .next t ∧ t.st = .transmitting) ∧
    (∃ t, hwReturn Config.std none (sending .gap 4 17 (some (.sleep 128000)) []) = .next t ∧ t.st ≠ .transmitting) ∧
    (∃ u, exec (.encCp 0 8 0) (sending .gap 4 17 (some (.sleep 128000)) []) = .next u) :=
  ⟨rfl, ⟨_, rfl⟩, ⟨_, rfl⟩, ⟨_, rfl, rfl⟩, ⟨_, rfl, by decide⟩, ⟨_, rfl⟩⟩

theorem witness_sleep_ranges : 158 < 2 ^ 32 ∧ 1026 < 2 ^ 32 ∧ markSleep 158 157 = 1 ∧ pauseSleep 1026 12 5 = 1009 ∧
    markSleep 0 0 = 1 := by decide

/-- The first, a middle and the last data symbol, START and STOP of `0x047C` (program P1). -/
theorem witness_symbols : pauseOf Config.std 0 0x047C = some 1026 ∧ pauseOf Config.std 1 0x047C = some 263 ∧
    pauseOf Config.std 6 0x047C = some 553 ∧ pauseOf Config.std 16 0x047C = some 263 ∧
    pauseOf Config.std 17 0x047C = some 1026 ∧ pauseOf Config.std 18 0x047C = none := by decide

/-- Gaps at the ends of the ranges of repetitions and channels (section 2.10). -/
theorem witness_gaps : gap Config.std 0 1 = 80000 ∧ gap Config.std 1 4 = 80000 ∧ gap Config.std 2 1 = 128000 ∧
    gap Config.std 2 2 = 160000 ∧ gap Config.std 4 3 = 192000 ∧ gap Config.std 4 4 = 224000 := by decide

theorem witness_logical_channel : logicalChannel 0x7000 = 4 ∧ logicalChannel 0x3000 = 4 ∧
    (0x7000 : Frame) &&& 0x3FFF = (0x3000 : Frame) &&& 0x3FFF ∧ logicalChannel 0x047C = 1 := by decide

/-- Each phase, ready to make its call: START, STOP and the last gap. -/
theorem witness_phases :
    (sending .markOn 0 0 none [.txStep 0]).phase = .markOn ∧ (sending .markWait 0 17 none [.txStep 0]).phase = .markWait ∧
    (sending .spaceOn 4 16 none [.txStep 0]).phase = .spaceOn ∧ (sending .spaceWait 4 17 none [.txStep 0]).phase = .spaceWait ∧
    (sending .gap 4 17 none [.txStep 0]).phase = .gap ∧ (sending .gap 4 17 none [.txStep 0]).st = .transmitting ∧
    (sending .gap 4 17 none [.txStep 0]).outstanding = none ∧ (sending .gap 4 17 none [.txStep 0]).f = .written 0x047C ∧
    (sending .gap 4 17 none [.txStep 0]).ch = .written 1 ∧ (sending .gap 4 17 none [.txStep 0]).rep = .written 4 ∧
    (sending .gap 4 17 none [.txStep 0]).sym = .written 17 ∧ (17 : BitVec 5).toNat ≤ 17 ∧
    (sending .gap 4 17 none [.txStep 0]).wawe = .written 12 ∧ (sending .gap 4 17 none [.txStep 0]).mpe = .written 5 := by decide

/-- Each return of a transmission, where the sequencer's choices meet: symbols 16 and 17, repetitions 3 and 4. -/
theorem witness_returns :
    ((after (step (sending .markOn 0 0 (some (.level .active)) [.hwReturn none]))).map State.phase) = some .markWait ∧
    ((after (step (sending .markWait 0 0 (some (.sleep 146)) [.hwReturn none]))).map State.phase) = some .spaceOn ∧
    ((after (step (sending .spaceOn 0 0 (some (.level .inactive)) [.hwReturn none]))).map State.phase) = some .spaceWait ∧
    ((after (step (sending .spaceWait 0 16 (some (.sleep 1)) [.hwReturn none]))).map fun t => (t.phase, t.sym))
      = some (.markOn, .written 17) ∧
    ((after (step (sending .spaceWait 0 17 (some (.sleep 1)) [.hwReturn none]))).map State.phase) = some .gap ∧
    ((after (step (sending .gap 3 17 (some (.sleep 1)) [.hwReturn none]))).map fun t => (t.phase, t.rep, t.sym))
      = some (.markOn, .written 4, .written 0) ∧
    ((after (step (sending .gap 4 17 (some (.sleep 1)) [.hwReturn none]))).map fun t => (t.phase, t.rep))
      = some (.idle, .written 5) := by decide

/-- Each calibration sub-step, ready to make its call. -/
theorem witness_substep_calls :
    (calibratingAt .cLow none [.txStep 0]).calStep = .written .cLow ∧ (calibratingAt .cCarrier none [.txStep 0]).calStep = .written .cCarrier
    ∧ (calibratingAt .cT0 none [.txStep 0]).calStep = .written .cT0 ∧ (calibratingAt .cAct none [.txStep 0]).calStep = .written .cAct
    ∧ (calibratingAt .cSlp none [.txStep 0]).calStep = .written .cSlp ∧ (calibratingAt .cT1 none [.txStep 0]).calStep = .written .cT1
    ∧ (calibratingAt .cInact none [.txStep 0]).calStep = .written .cInact ∧ (calibratingAt .cT2 none [.txStep 0]).calStep = .written .cT2
    ∧ (calibratingAt .cT3 none [.txStep 0]).calStep = .written .cT3 ∧ (calibratingAt .cDummy none [.txStep 0]).calStep = .written .cDummy
    ∧ (calibratingAt .cSettle none [.txStep 0]).calStep = .written .cSettle ∧ (calibratingAt .cSettle none [.txStep 0]).phase = .cal
    ∧ (calibratingAt .cSettle none [.txStep 0]).st = .calibrating ∧ (calibratingAt .cSettle none [.txStep 0]).outstanding = none := by
  decide

/-- Each calibration sub-step's return, with the loop counter at 6 and at 7. -/
theorem witness_substep_returns :
    ((after (step (calibratingAt .cLow (some (.level .inactive)) [.hwReturn none]))).map State.calStep) = some (.written .cCarrier) ∧
    ((after (step (calibratingAt .cCarrier (some (.carrier 26)) [.hwReturn none]))).map State.calStep) = some (.written .cT0) ∧
    ((after (step (calibratingAt .cT0 (some (.now 1000)) [.hwReturn none]))).map State.t0) = some (.written 1000) ∧
    ((after (step (calibratingAt .cAct (some (.level .active)) [.hwReturn none]))).map State.calStep) = some (.written .cSlp) ∧
    ((after (step { calibratingAt .cSlp (some (.sleep 1)) [.hwReturn none] with calI := .written 6 })).map fun t => (t.calI, t.calStep))
      = some (.written 7, .written .cAct) ∧
    ((after (step { calibratingAt .cSlp (some (.sleep 1)) [.hwReturn none] with calI := .written 7 })).map fun t => (t.calI, t.calStep))
      = some (.written 8, .written .cT1) ∧
    ((after (step (calibratingAt .cInact (some (.level .inactive)) [.hwReturn none]))).map State.calStep) = some (.written .cT2) ∧
    ((after (step (calibratingAt .cT2 (some (.now 1100)) [.hwReturn none]))).map State.calStep) = some (.written .cDummy) ∧
    ((after (step (calibratingAt .cT3 (some (.now 1180)) [.hwReturn none]))).map State.mpe) = some (.written 5) ∧
    ((after (step (calibratingAt .cSettle (some (.sleep 2000)) [.hwReturn none]))).map State.responses) = some [0] := by decide

/-- A transmitting state that meets the invariant, and that steps. -/
theorem witness_invariant : Inv (sending .markWait 0 0 none [.txStep 0]) ∧
    SleepsBounded (sending .markWait 0 0 none [.txStep 0]).trace ∧
    (∃ t, step (sending .markWait 0 0 none [.txStep 0]) = .next t) := by
  refine ⟨⟨⟨by decide, by decide, by decide⟩, ?_, ⟨0x047C, 0, 0, ?_⟩, by unfold AnswersOk; decide⟩,
    fun d h => (by cases h), ⟨_, rfl⟩⟩
  · constructor
    case waweValue => intro a b ha hb; cases ha; cases hb; rfl
    case mpeValue => intro a b ha hb; cases ha; cases hb; rfl
    case channelValue => intro f hf; cases hf; rfl
    all_goals decide
  exact {
    phase := by decide
    wawe := by decide
    mpe := by decide
    frame := rfl
    channel := by decide
    rep := rfl
    repBound := by decide
    sym := rfl
    symBound := by decide
    gapAtStop := by decide
    named := fun e h => by cases h
    level := fun _ => rfl
    shown := fun l h => by cases h }

/-- The scripts of an uninterrupted `TX_INIT` from reset, with the draws of program P1: with `C_INACT` and without it. -/
theorem witness_completed_init (b : Bool) : ∃ s : State, s.st = .uninit ∧ s.outstanding = none ∧
    s.script = .port 0x80000000 ::
      (calls ([0, 0, 1000] ++ List.replicate 16 0 ++ [1096] ++ (if b then [0] else []) ++ [1100]) ++ [.txStep 0]
        ++ calls [1180, 0] ++ []) :=
  ⟨start (.port 0x80000000 ::
      (calls ([0, 0, 1000] ++ List.replicate 16 0 ++ [1096] ++ (if b then [0] else []) ++ [1100]) ++ [.txStep 0]
        ++ calls [1180, 0] ++ [])),
    rfl, rfl, rfl⟩

/-- Without `C_INACT` that script runs to its end in 48 steps and 23 events (R78). -/
theorem test_init_without_inact :
    (after ((coreUnder { calEndInactive := false }).run 48 (start (.port 0x80000000 ::
      (calls ([0, 0, 1000] ++ List.replicate 16 0 ++ [1096] ++ [1100]) ++ [.txStep 0] ++ calls [1180, 0]))))).map
        (fun t => (t.st, t.trace.length, t.outLevel)) = some (.calibrated, 23, .known .active) := rfl

/-- The script of an uninterrupted `TX_SEND`, from the state after program P1's `tx.init`. -/
theorem witness_completed_send : ∃ s : State, s.st = .calibrated ∧ s.outstanding = none ∧ s.wawe = .written 12 ∧
    s.mpe = .written 5 ∧ (List.replicate 365 (0 : Word32)).length = 365 ∧
    s.script = .port (sendWord 0x047C) :: (calls (List.replicate 365 0) ++ []) ∧
    s.responses.length = s.accepted ∧ s.abandoned = [] ∧ s.faultCode = .noFault :=
  ⟨calibrated (.port (sendWord 0x047C) :: (calls (List.replicate 365 0) ++ [])),
    rfl, rfl, rfl, rfl, List.length_replicate, rfl, rfl, rfl, rfl⟩

theorem witness_shape_ranges : (4 : Nat) < 5 ∧ (17 : Nat) < 18 ∧ 73 * 4 + 72 < 365 := by decide

end Sys2Proof.Tests
end

section
/-! Proofs of the scope family (spec/00_scope.md): the blocking calls of R16. -/

namespace Sys2Proof.Machine

/-- R16, R133: with a call outstanding the sequencer does not move, whatever the parameters and the clock. -/
theorem txStep_of_outstanding {s : State} {e : Event} (c : Config) (clock : Word32) (h : s.outstanding = some e) :
    txStep c clock s = .next s := by
  simp [txStep, h]

/-- Settles O36: the script's entry is a Transmitter step (`step_txStep`), taken with the call still outstanding. -/
theorem transmitterBlocksOnItsCall : Obligations.TransmitterBlocksOnItsCall := by
  intro s e clock rest hscript hcall
  have hcall' : (setScript rest s).outstanding = some e := by rw [setScript_outstanding, hcall]
  calc step s
    _ = txStep Config.std clock (setScript rest s) := step_txStep hscript
    _ = .next (setScript rest s) := txStep_of_outstanding Config.std clock hcall'

end Sys2Proof.Machine
end

section
/-! Proofs of the state family (spec/10_state.md), part 1: the invariant. It holds at reset, and every move of `Act` keeps
it. -/

namespace Sys2Proof.Machine

/-! ### What the invariant says in each state -/

theorem stOk_uninit {s : State} (h : s.st = .uninit) : StOk s ↔ UninitOk s := by simp [StOk, h]

theorem stOk_calibrating {s : State} (h : s.st = .calibrating) : StOk s ↔ ∃ k n, CalOk s k n := by simp [StOk, h]

theorem stOk_calibrated {s : State} (h : s.st = .calibrated) : StOk s ↔ CalibratedOk s := by simp [StOk, h]

theorem stOk_transmitting {s : State} (h : s.st = .transmitting) : StOk s ↔ ∃ f r y, SendOk s f r y := by simp [StOk, h]

theorem stOk_faulted {s : State} (h : s.st = .faulted) : StOk s ↔ FaultedOk s := by simp [StOk, h]

/-- The requests answered so far are at most those accepted. -/
theorem AnswersOk.responses_le {s : State} (h : AnswersOk s) : s.responses.length ≤ s.accepted :=
  le_trans (Nat.le_add_right _ _) h

/-! ### The records that no register depends on -/

/-- `t` has every register, the position and the outstanding call of `s`: at most the records, the script and the
free-value counter differ. -/
def SameRegs (s t : State) : Prop :=
  t = { s with
    abandoned := t.abandoned, trace := t.trace, responses := t.responses, accepted := t.accepted, script := t.script,
    draws := t.draws }

theorem SameCore.sameRegs {s u : State} (h : SameCore s u) : SameRegs s u := by
  unfold SameCore at h; rw [h]; rfl

theorem SameRegs.faultRegsOk {s t : State} (h : SameRegs s t) (hf : FaultRegsOk s) : FaultRegsOk t := by
  rw [h]; exact { hf with }

theorem SameRegs.regsOk {s t : State} (h : SameRegs s t) (hr : RegsOk s) : RegsOk t := by
  rw [h]; exact { hr with }

theorem SameRegs.stOk {s t : State} (h : SameRegs s t) (hs : StOk s) : StOk t := by
  have same : t.st = s.st := by rw [h]
  cases hst : s.st with rw [hst] at same
  | uninit =>
    refine (stOk_uninit same).2 ?_
    rw [h]; exact { (stOk_uninit hst).1 hs with }
  | calibrating =>
    obtain ⟨k, n, hc⟩ := (stOk_calibrating hst).1 hs
    refine (stOk_calibrating same).2 ⟨k, n, ?_⟩
    rw [h]; exact { hc with }
  | calibrated =>
    refine (stOk_calibrated same).2 ?_
    rw [h]; exact { (stOk_calibrated hst).1 hs with }
  | transmitting =>
    obtain ⟨f, r, y, hx⟩ := (stOk_transmitting hst).1 hs
    refine (stOk_transmitting same).2 ⟨f, r, y, ?_⟩
    rw [h]; exact { hx with }
  | faulted =>
    refine (stOk_faulted same).2 ?_
    rw [h]; exact { (stOk_faulted hst).1 hs with }

/-- The invariant reads the registers, and of the records only how many requests were accepted and answered. -/
theorem SameRegs.inv {s t : State} (h : SameRegs s t) (hi : Inv s) (answers : AnswersOk t) : Inv t :=
  ⟨h.faultRegsOk hi.faultRegs, h.regsOk hi.regs, h.stOk hi.state, answers⟩

theorem SameCore.inv {s u : State} (h : SameCore s u) (hi : Inv s) : Inv u :=
  h.sameRegs.inv hi (by rw [h]; exact hi.answers)

/-! ### Reset and faults -/

/-- Settles O48: no register without a reset value is written, and nothing is outstanding. -/
theorem invariantHoldsAtReset : Obligations.InvariantHoldsAtReset where
  faultRegs := by constructor <;> simp [State.reset]
  regs := by constructor <;> simp [State.reset]
  state := (stOk_uninit rfl).2 (by constructor <;> simp [State.reset])
  answers := by simp [AnswersOk, State.reset, St.busy]

theorem sameRegs_resetCore (s : State) : SameRegs State.reset (resetCore s) := rfl

theorem inv_resetCore {s : State} (h : AnswersOk s) : Inv (resetCore s) :=
  (sameRegs_resetCore s).inv invariantHoldsAtReset h.responses_le

/-- Taking a fault leads to `FAULTED` with the fault registers set; the other registers keep their order. -/
theorem inv_raiseFault {code : FaultCode} {w : Word32} {s : State} (hr : RegsOk s) (ha : AnswersOk s)
    (hcode : code ≠ .noFault) (herr : s.hwErr.isWritten = true ↔ code = .hwError) : Inv (raiseFault code w s) where
  faultRegs := { code := by simpa using hcode, req := by simp, err := herr }
  regs := { hr with }
  state := (stOk_faulted rfl).2 ⟨rfl, rfl⟩
  answers := ha.responses_le

/-- Where no fault is recorded no error value is latched. -/
theorem FaultRegsOk.hwErr_unwritten {s : State} (h : FaultRegsOk s) (hs : s.st ≠ .faulted) :
    s.hwErr.isWritten ≠ true := by
  rw [Ne, h.err, h.code.2 hs]; simp

theorem inv_requestFault {code : FaultCode} {w : Word32} {s : State} (hi : Inv s) (hs : s.st ≠ .faulted)
    (hcode : code ≠ .noFault) (hreq : code ≠ .hwError) : Inv (raiseFault code w s) :=
  inv_raiseFault hi.regs hi.answers hcode (iff_of_false (hi.faultRegs.hwErr_unwritten hs) hreq)

theorem inv_hwError {e : Event} {x : HwErr} {w : Word32} {s : State} (hi : Inv s) :
    Inv (raiseFault .hwError w { blurLevel e (endCall s) with hwErr := .written x }) := by
  rw [blurLevel_frame]
  exact inv_raiseFault { hi.regs with } hi.answers (by simp) (by simp)

/-! ### The acceptance of a request -/

theorem inv_startCalibration {s : State} (hi : Inv s) (hs : s.st = .uninit) : Inv (startCalibration (accept s)) := by
  have hu := (stOk_uninit hs).1 hi.state
  obtain ⟨t0, -, t2, -⟩ := hu.clocks
  obtain ⟨frame, -, -, -⟩ := hu.sendRegs
  have cal : CalOk (startCalibration (accept s)) .cLow 0 :=
    { phase := rfl, step := rfl, count := rfl, bound := by simp, looping := by simp
      t0 := by simp [t0, CalStep.pos, CalStep.code]
      wawe := by simp [hu.wawe, CalStep.pos, CalStep.code]
      t2 := by simp [t2, CalStep.pos, CalStep.code]
      mpe := by simp [hu.mpe, CalStep.pos, CalStep.code]
      named := by simp [CallNamed, hu.noCall]
      level := fun _ => hu.level
      shown := by simp [LevelShown, hu.noCall]
      noFrame := frame }
  exact
    { faultRegs := { hi.faultRegs with
        code := by simpa [hs] using hi.faultRegs.code
        req := by simpa [hs] using hi.faultRegs.req }
      regs := { hi.regs with position := rfl, t0 := fun _ => rfl }
      state := (stOk_calibrating rfl).2 ⟨_, _, cal⟩
      answers := Nat.succ_le_succ hi.answers.responses_le }

theorem inv_startSend {frame : Frame} {s : State} (hi : Inv s) (hs : s.st = .calibrated) :
    Inv (startSend frame (accept s)) := by
  have hc := (stOk_calibrated hs).1 hi.state
  have send : SendOk (startSend frame (accept s)) frame 0 0 :=
    { phase := by simp, wawe := hc.wawe, mpe := hc.mpe, frame := rfl, channel := rfl, rep := rfl, repBound := by simp
      sym := rfl, symBound := by simp, gapAtStop := by simp
      named := by simp [CallNamed, hc.noCall]
      level := fun _ => hc.level
      shown := by simp [LevelShown, hc.noCall] }
  exact
    { faultRegs := { hi.faultRegs with
        code := by simpa [hs] using hi.faultRegs.code
        req := by simpa [hs] using hi.faultRegs.req }
      regs := { hi.regs with
        frame := fun _ => hc.mpe, channel := rfl, rep := rfl, sym := rfl
        channelValue := by rintro f ⟨⟩; rfl }
      state := (stOk_transmitting rfl).2 ⟨_, _, _, send⟩
      answers := Nat.succ_le_succ hi.answers.responses_le }

/-! ### A call is made -/

/-- No `SetLevel` is outstanding while another call is. -/
theorem noLevelCall_of_call {s : State} {e : Event} (ho : s.outstanding = some e) (he : ∀ l, e ≠ .level l) :
    NoLevelCall s := by
  intro l hl
  exact he l (Option.some.inj (ho.symm.trans hl))

theorem callNamed_of_none {s : State} (ho : s.outstanding = none) : CallNamed s := by simp [CallNamed, ho]

theorem levelShown_of_none {s : State} (ho : s.outstanding = none) : LevelShown s := by simp [LevelShown, ho]

theorem callNamed_makeCall {e : Event} {clock : Word32} {s : State} (he : nextCall Config.std clock s = .ok (some e)) :
    CallNamed (makeCall e s) := by
  rintro _ ⟨⟩
  exact ⟨clock, he⟩

theorem levelShown_makeCall (e : Event) (s : State) : LevelShown (makeCall e s) := by
  intro l hl
  cases hl
  rfl

/-- A call that is no `SetLevel` leaves `out_level` alone, so what held of the level before it still holds. -/
theorem level_makeCall {e : Event} {s : State} {P : OutLevel → Prop} (ho : s.outstanding = none)
    (level : NoLevelCall s → P s.outLevel) : NoLevelCall (makeCall e s) → P (makeCall e s).outLevel := by
  intro none
  have before : P s.outLevel := level (by simp [NoLevelCall, ho])
  cases e with
  | level l => exact absurd rfl (none l)
  | carrier p => exact before
  | sleep d => exact before
  | now t => exact before

theorem inv_makeCall {e : Event} {clock : Word32} {s : State} (hi : Inv s) (ho : s.outstanding = none)
    (hb : s.st.busy = true) (he : nextCall Config.std clock s = .ok (some e)) : Inv (makeCall e s) where
  faultRegs := { hi.faultRegs with }
  regs := { hi.regs with }
  answers := hi.answers
  state := by
    rcases (St.busy_iff _).1 hb with hs | hs
    · obtain ⟨k, n, hc⟩ := (stOk_calibrating hs).1 hi.state
      exact (stOk_calibrating (s := makeCall e s) hs).2 ⟨k, n, { hc with
        named := callNamed_makeCall he, level := level_makeCall ho hc.level, shown := levelShown_makeCall e s }⟩
    · obtain ⟨f, r, y, hx⟩ := (stOk_transmitting hs).1 hi.state
      exact (stOk_transmitting (s := makeCall e s) hs).2 ⟨f, r, y, { hx with
        named := callNamed_makeCall he
        level := level_makeCall (P := (· = .known (txLevel s.phase))) ho hx.level
        shown := levelShown_makeCall e s }⟩

/-! ### A calibration call returns -/

/-- The level in `out_level` when the call of a calibration sub-step returns (R80, R81, R83). -/
def calLevelHeld : CalStep → Level
  | .cLow => .inactive
  | .cCarrier => .inactive
  | .cT0 => .inactive
  | .cAct => .active
  | .cSlp => .active
  | .cT1 => .active
  | .cInact => .inactive
  | .cT2 => .inactive
  | .cDummy => .inactive
  | .cT3 => .inactive
  | .cSettle => .inactive

/-- The position of a calibration names the call of its sub-step. -/
theorem CalOk.nextCall_eq {s : State} {k : CalStep} {n : BitVec 4} (hc : CalOk s k n) (hs : s.st = .calibrating)
    (clock : Word32) : nextCall Config.std clock s = .ok (calCall Config.std clock k) := by
  simp [nextCall, hs, hc.phase, hc.step]

/-- The outstanding call of a calibration is that of its sub-step. -/
theorem CalOk.call_eq {s : State} {k : CalStep} {n : BitVec 4} {e : Event} (hc : CalOk s k n) (hs : s.st = .calibrating)
    (ho : s.outstanding = some e) : ∃ clock, calCall Config.std clock k = some e := by
  obtain ⟨clock, he⟩ := hc.named e ho
  rw [hc.nextCall_eq hs] at he
  exact ⟨clock, Except.ok.inj he⟩

theorem CalOk.outLevel_at_return {s : State} {k : CalStep} {n : BitVec 4} {e : Event} (hc : CalOk s k n)
    (hs : s.st = .calibrating) (ho : s.outstanding = some e) : s.outLevel = .known (calLevelHeld k) := by
  obtain ⟨clock, he⟩ := hc.call_eq hs ho
  have kept (h : ∀ l, e ≠ .level l) : calLevelOk k s.outLevel := hc.level (noLevelCall_of_call ho h)
  cases k with
  | cLow => cases he; exact hc.shown _ ho
  | cCarrier => cases he; exact kept (by simp)
  | cT0 => cases he; exact kept (by simp)
  | cAct => cases he; exact hc.shown _ ho
  | cSlp => cases he; exact kept (by simp)
  | cT1 => cases he; exact kept (by simp)
  | cInact => cases he; exact hc.shown _ ho
  | cT2 => cases he; exact kept (by simp)
  | cDummy => cases he
  | cT3 => cases he; exact kept (by simp)
  | cSettle => cases he; exact kept (by simp)

/-- The parts of the invariant that a return has to restore: the registers are in order, and the state is one of R23's. -/
structure CoreOk (s : State) : Prop where
  regs : RegsOk s
  state : StOk s

/-- `t` is `s` with nothing outstanding, and at most the position and the loop counter of the calibration moved. -/
def CalMoved (s t : State) : Prop := t = { s with outstanding := none, calStep := t.calStep, calI := t.calI }

/-- A sub-step that writes no clock reading keeps the registers in order and leads to one with the same registers
written. -/
theorem CalMoved.ok {s t : State} {k k' : CalStep} {n n' : BitVec 4} (h : CalMoved s t) (hr : RegsOk s) (hc : CalOk s k n)
    (hs : s.st = .calibrating) (hk : t.calStep = .written k') (hn : t.calI = .written n')
    (same : ∀ m ∈ [3, 6, 8, 10], m ≤ k.pos ↔ m ≤ k'.pos) (bound : n'.toNat ≤ 8)
    (looping : k' = .cAct ∨ k' = .cSlp → n'.toNat < 8) (level : calLevelOk k' s.outLevel) : CoreOk t := by
  rw [h, hk, hn]
  refine ⟨{ hr with position := rfl, t0 := fun _ => rfl }, (stOk_calibrating ?_).2 ⟨k', n', ?_⟩⟩
  · exact hs
  · exact { hc with
      step := rfl, count := rfl, bound, looping
      t0 := hc.t0.trans (same 3 (by simp)), wawe := hc.wawe.trans (same 6 (by simp))
      t2 := hc.t2.trans (same 8 (by simp)), mpe := hc.mpe.trans (same 10 (by simp))
      named := callNamed_of_none rfl, level := fun _ => level, shown := levelShown_of_none rfl }

/-- The silent step `C_DUMMY` is the only one without a call. -/
theorem inv_dummyStep {clock : Word32} {s : State} (hi : Inv s) (ho : s.outstanding = none)
    (he : nextCall Config.std clock s = .ok none) : Inv (dummyStep s) := by
  have moved : CalMoved s (dummyStep s) := by unfold CalMoved; rw [← ho]; rfl
  rcases nextCall_ok he with ⟨hs, -, k, hk, hcall⟩ | ⟨-, -, h⟩ | ⟨-, -, w, -, h⟩ | ⟨-, -, h⟩ |
    ⟨-, -, y, f, w, m, p, -, -, -, -, -, h⟩ | ⟨-, -, r, n, -, -, h⟩
  · obtain ⟨k', n, hc⟩ := (stOk_calibrating hs).1 hi.state
    obtain rfl : k' = k := RegVal.written.inj (hc.step.symm.trans hk)
    obtain rfl : k' = .cDummy := by cases k' <;> cases hcall; rfl
    obtain ⟨regs, state⟩ := moved.ok hi.regs hc hs rfl hc.count (by decide) hc.bound (by simp)
      (hc.level (by simp [NoLevelCall, ho]))
    exact { faultRegs := { hi.faultRegs with }, regs, state, answers := hi.answers }
  all_goals cases h

/-- What the return of a call leaves as it is, and that it stays in its operation or completes it with `resp = 0`. -/
structure Returned (s t : State) : Prop where
  faultCode : t.faultCode = s.faultCode
  faultReq : t.faultReq = s.faultReq
  hwErr : t.hwErr = s.hwErr
  accepted : t.accepted = s.accepted
  outcome : (t.st = s.st ∧ t.responses = s.responses) ∨ (t.st = .calibrated ∧ t.responses = s.responses ++ [0])

/-- In `CALIBRATING` a return does what its sub-step says (R79). -/
theorem afterReturn_calibrating {c : Config} {e : Event} {k : CalStep} {s : State} (hs : s.st = .calibrating)
    (hp : s.phase = .cal) (hk : s.calStep = .written k) : afterReturn c e s = afterCal c e k s := by
  simp [afterReturn, hs, hp, hk]

theorem afterCal_returned {c : Config} {e : Event} {k : CalStep} {s t : State} (h : afterCal c e k s = .ok t) :
    Returned s t := by
  rcases afterCal_ok h with ⟨-, rfl⟩ | ⟨-, rfl⟩ | ⟨-, x, -, rfl⟩ | ⟨-, rfl⟩ | ⟨-, n, -, rfl⟩ | ⟨-, x, a, -, -, rfl⟩ |
    ⟨-, rfl⟩ | ⟨-, x, -, rfl⟩ | ⟨-, x, a, -, -, rfl⟩ | ⟨-, rfl⟩
  case inr.inr.inr.inr.inr.inr.inr.inr.inr => exact ⟨rfl, rfl, rfl, rfl, .inr ⟨rfl, rfl⟩⟩
  all_goals exact ⟨rfl, rfl, rfl, rfl, .inl ⟨rfl, rfl⟩⟩

theorem afterReturn_returned {c : Config} {e : Event} {s t : State} (h : afterReturn c e s = .ok t) : Returned s t := by
  rcases afterReturn_ok h with ⟨-, -, k, -, h⟩ | ⟨-, -, rfl⟩ | ⟨-, -, rfl⟩ | ⟨-, -, rfl⟩ |
    ⟨-, -, y, -, ⟨-, rfl⟩ | ⟨-, rfl⟩⟩ | ⟨-, -, r, -, ⟨-, rfl⟩ | ⟨-, rfl⟩⟩
  case inl => exact afterCal_returned h
  case inr.inr.inr.inr.inr.inr => exact ⟨rfl, rfl, rfl, rfl, .inr ⟨rfl, rfl⟩⟩
  all_goals exact ⟨rfl, rfl, rfl, rfl, .inl ⟨rfl, rfl⟩⟩

/-- A return records no fault. -/
theorem Returned.faultRegsOk {s t : State} (h : Returned s t) (hf : FaultRegsOk s) (hs : s.st ≠ .faulted) :
    FaultRegsOk t := by
  have ht : t.st ≠ .faulted := by rcases h.outcome with ⟨h, -⟩ | ⟨h, -⟩ <;> simp [h, hs]
  constructor
  · rw [h.faultCode]; exact iff_of_true (hf.code.2 hs) ht
  · rw [h.faultReq]; exact iff_of_false (by simp [hf.req, hs]) ht
  · rw [h.hwErr, h.faultCode]; exact hf.err

/-- A return answers the operation in flight at most once. -/
theorem Returned.answersOk {s t : State} (h : Returned s t) (ha : AnswersOk s) (hb : s.st.busy = true) : AnswersOk t := by
  unfold AnswersOk at *
  rw [h.accepted]
  rcases h.outcome with ⟨hs, hr⟩ | ⟨hs, hr⟩
  · rw [hs, hr]; exact ha
  · rw [hb] at ha
    simpa [hs, hr, St.busy] using ha

section
variable {s : State} {n : BitVec 4}

/-- The reading `t0` returns: the loop starts (R81). -/
theorem CalOk.t0_returned (hc : CalOk s .cT0 n) (hr : RegsOk s) (hs : s.st = .calibrating)
    (level : s.outLevel = .known .inactive) (x : Word32) :
    CoreOk { endCall s with t0 := .written x, calI := .written 0, calStep := .written .cAct } := by
  have t1 : s.t1.isWritten ≠ true := by rw [← hr.wawe, Ne, hc.wawe]; decide
  refine ⟨{ hr with position := rfl, t0 := fun _ => rfl, t1 := fun _ => rfl, waweValue := ?_ },
    (stOk_calibrating ?_).2 ⟨.cAct, 0, ?_⟩⟩
  · intro a b _ hb
    exact absurd (isWritten_iff.2 ⟨b, hb⟩) t1
  · exact hs
  · exact { hc with
      step := rfl, count := rfl, bound := by decide, looping := by decide
      t0 := iff_of_true rfl (by decide), wawe := hc.wawe.trans (by decide)
      t2 := hc.t2.trans (by decide), mpe := hc.mpe.trans (by decide)
      named := callNamed_of_none rfl, level := fun _ => by simp [calLevelOk, level], shown := levelShown_of_none rfl }

/-- The reading `t1` returns, and the write effort is the quotient of `t1 - t0` (R82). -/
theorem CalOk.t1_returned (hc : CalOk s .cT1 n) (hr : RegsOk s) (hs : s.st = .calibrating)
    (level : s.outLevel = .known .active) {a : Word32} (ha : s.t0 = .written a) (x : Word32) :
    CoreOk { endCall s with t1 := .written x, wawe := .written (waweOf Config.std a x), calStep := .written .cInact } := by
  refine ⟨{ hr with
      position := (congrArg RegVal.isWritten hc.count).symm
      t0 := fun _ => rfl, t1 := fun _ => isWritten_iff.2 ⟨a, ha⟩, t2 := fun _ => rfl, wawe := rfl, waweValue := ?_ },
    (stOk_calibrating ?_).2 ⟨.cInact, n, ?_⟩⟩
  · intro a' b ha' hb
    cases hb
    cases ha.symm.trans ha'
    rfl
  · exact hs
  · exact { hc with
      step := rfl, looping := by simp
      t0 := hc.t0.trans (by decide), wawe := iff_of_true rfl (by decide)
      t2 := hc.t2.trans (by decide), mpe := hc.mpe.trans (by decide)
      named := callNamed_of_none rfl, level := fun _ => level, shown := levelShown_of_none rfl }

/-- The reading `t2` returns (R84). -/
theorem CalOk.t2_returned (hc : CalOk s .cT2 n) (hr : RegsOk s) (hs : s.st = .calibrating)
    (level : s.outLevel = .known .inactive) (x : Word32) :
    CoreOk { endCall s with t2 := .written x, calStep := .written .cDummy } := by
  have t1 : s.t1.isWritten = true := by rw [← hr.wawe, hc.wawe]; decide
  have t3 : s.t3.isWritten ≠ true := by rw [← hr.mpe, Ne, hc.mpe]; decide
  refine ⟨{ hr with
      position := (congrArg RegVal.isWritten hc.count).symm
      t0 := fun _ => rfl, t2 := fun _ => t1, t3 := fun _ => rfl, mpeValue := ?_ },
    (stOk_calibrating ?_).2 ⟨.cDummy, n, ?_⟩⟩
  · intro a b _ hb
    exact absurd (isWritten_iff.2 ⟨b, hb⟩) t3
  · exact hs
  · exact { hc with
      step := rfl, looping := by simp
      t0 := hc.t0.trans (by decide), wawe := hc.wawe.trans (by decide)
      t2 := iff_of_true rfl (by decide), mpe := hc.mpe.trans (by decide)
      named := callNamed_of_none rfl, level := fun _ => level, shown := levelShown_of_none rfl }

/-- The reading `t3` returns, and the processing effort is the quotient of `t3 - t2` (R85). -/
theorem CalOk.t3_returned (hc : CalOk s .cT3 n) (hr : RegsOk s) (hs : s.st = .calibrating)
    (level : s.outLevel = .known .inactive) {a : Word32} (ha : s.t2 = .written a) (x : Word32) :
    CoreOk { endCall s with t3 := .written x, mpe := .written (mpeOf Config.std a x), calStep := .written .cSettle } := by
  refine ⟨{ hr with
      position := (congrArg RegVal.isWritten hc.count).symm
      t0 := fun _ => rfl, t3 := fun _ => isWritten_iff.2 ⟨a, ha⟩, mpe := rfl, frame := fun _ => rfl, mpeValue := ?_ },
    (stOk_calibrating ?_).2 ⟨.cSettle, n, ?_⟩⟩
  · intro a' b ha' hb
    cases hb
    cases ha.symm.trans ha'
    rfl
  · exact hs
  · exact { hc with
      step := rfl, looping := by simp
      t0 := hc.t0.trans (by decide), wawe := hc.wawe.trans (by decide)
      t2 := hc.t2.trans (by decide), mpe := iff_of_true rfl (by decide)
      named := callNamed_of_none rfl, level := fun _ => level, shown := levelShown_of_none rfl }

/-- The sleep of the loop returns: the loop goes on below `CAL_ITER` (R82). -/
theorem CalOk.slp_returned (hc : CalOk s .cSlp n) (hr : RegsOk s) (hs : s.st = .calibrating)
    (level : s.outLevel = .known .active) {k' : CalStep} (hk : k' = if (n + 1).toNat < 8 then .cAct else .cT1) :
    CoreOk { endCall s with calI := .written (n + 1), calStep := .written k' } := by
  have moved : CalMoved s { endCall s with calI := .written (n + 1), calStep := .written k' } := rfl
  have below : n.toNat < 8 := hc.looping (.inr rfl)
  have bound : (n + 1).toNat ≤ 8 := by simp; omega
  split at hk
  · next more => subst hk; exact moved.ok hr hc hs rfl rfl (by decide) bound (fun _ => more) (by simp [calLevelOk, level])
  · next last => subst hk; exact moved.ok hr hc hs rfl rfl (by decide) bound (by simp) level

/-- The settling sleep returns: the calibration is complete (R87). -/
theorem CalOk.settle_returned (hc : CalOk s .cSettle n) (hr : RegsOk s) (level : s.outLevel = .known .inactive) :
    CoreOk (complete (endCall s)) :=
  ⟨{ hr with }, (stOk_calibrated rfl).2
    { phase := rfl, noCall := rfl, level, wawe := hc.wawe.2 (by decide), mpe := hc.mpe.2 (by decide) }⟩

/-- The return of a calibration call keeps the registers in order, and leads to the next sub-step or to `CALIBRATED`. -/
theorem CalOk.returned {t : State} {k : CalStep} {e : Event} (hc : CalOk s k n) (hr : RegsOk s)
    (hs : s.st = .calibrating) (ho : s.outstanding = some e) (h : afterCal Config.std e k (endCall s) = .ok t) :
    CoreOk t := by
  have level := hc.outLevel_at_return hs ho
  rcases afterCal_ok h with ⟨rfl, rfl⟩ | ⟨rfl, rfl⟩ | ⟨rfl, x, -, rfl⟩ | ⟨rfl, rfl⟩ | ⟨rfl, n', hn, rfl⟩ |
    ⟨rfl, x, a, -, ha, rfl⟩ | ⟨rfl, rfl⟩ | ⟨rfl, x, -, rfl⟩ | ⟨rfl, x, a, -, ha, rfl⟩ | ⟨rfl, rfl⟩
  · exact CalMoved.ok (s := s) rfl hr hc hs rfl hc.count (by decide) hc.bound (by simp) level
  · exact CalMoved.ok (s := s) rfl hr hc hs rfl hc.count (by decide) hc.bound (by simp) level
  · exact hc.t0_returned hr hs level x
  · exact CalMoved.ok (s := s) rfl hr hc hs rfl hc.count (by decide) hc.bound (fun _ => hc.looping (.inl rfl)) level
  · obtain rfl : n = n' := RegVal.written.inj (hc.count.symm.trans hn)
    exact hc.slp_returned hr hs level rfl
  · exact hc.t1_returned hr hs level ha x
  · exact CalMoved.ok (s := s) rfl hr hc hs rfl hc.count (by decide) hc.bound (by simp) level
  · exact hc.t2_returned hr hs level x
  · exact hc.t3_returned hr hs level ha x
  · exact hc.settle_returned hr level

end

/-! ### A transmission's call returns -/

/-- The level in `out_level` when the call of a transmission phase returns (R89). -/
def txLevelHeld : Phase → Level
  | .idle => .inactive
  | .cal => .inactive
  | .markOn => .active
  | .markWait => .active
  | .spaceOn => .inactive
  | .spaceWait => .inactive
  | .gap => .inactive

theorem SendOk.outLevel_at_return {s : State} {f : Frame} {r : BitVec 3} {y : BitVec 5} {e : Event} (hx : SendOk s f r y)
    (hs : s.st = .transmitting) (ho : s.outstanding = some e) : s.outLevel = .known (txLevelHeld s.phase) := by
  obtain ⟨clock, he⟩ := hx.named e ho
  have kept (h : ∀ l, e ≠ .level l) : s.outLevel = .known (txLevel s.phase) := hx.level (noLevelCall_of_call ho h)
  rcases nextCall_ok he with ⟨hc, -⟩ | ⟨-, hp, he⟩ | ⟨-, hp, w, -, he⟩ | ⟨-, hp, he⟩ |
    ⟨-, hp, y, f, w, m, p, -, -, -, -, -, he⟩ | ⟨-, hp, r, n, -, -, he⟩
  · exact absurd (hs.symm.trans hc) (by decide)
  · cases he; rw [hp]; exact hx.shown _ ho
  · cases he; rw [kept (by simp), hp]; rfl
  · cases he; rw [hp]; exact hx.shown _ ho
  · cases he; rw [kept (by simp), hp]; rfl
  · cases he; rw [kept (by simp), hp]; rfl

/-- `t` is `s` with nothing outstanding, and at most the position of the transmission moved. -/
def SendMoved (s t : State) : Prop := t = { s with outstanding := none, phase := t.phase, rep := t.rep, sym := t.sym }

/-- A transmission that goes on keeps its registers in order and stands at a phase of a symbol of a repetition. -/
theorem SendMoved.ok {s t : State} {f : Frame} {r r' : BitVec 3} {y y' : BitVec 5} (h : SendMoved s t) (hr : RegsOk s)
    (hx : SendOk s f r y) (hs : s.st = .transmitting) (hp : t.phase ≠ .idle ∧ t.phase ≠ .cal)
    (hrep : t.rep = .written r') (hsym : t.sym = .written y') (repBound : r'.toNat < 5) (symBound : y'.toNat ≤ 17)
    (gapAtStop : t.phase = .gap → y' = 17) (level : s.outLevel = .known (txLevel t.phase)) : CoreOk t := by
  have frame : s.f.isWritten = true := isWritten_iff.2 ⟨f, hx.frame⟩
  rw [h, hrep, hsym]
  refine ⟨{ hr with rep := frame.symm, sym := frame.symm }, (stOk_transmitting ?_).2 ⟨f, r', y', ?_⟩⟩
  · exact hs
  · exact { hx with
      phase := hp, rep := rfl, repBound, sym := rfl, symBound, gapAtStop
      named := callNamed_of_none rfl, level := fun _ => level, shown := levelShown_of_none rfl }

/-- The last gap returns: the transmission is complete (R99). -/
theorem SendOk.completed {s : State} {f : Frame} {r r' : BitVec 3} {y : BitVec 5} (hx : SendOk s f r y) (hr : RegsOk s)
    (level : s.outLevel = .known .inactive) :
    CoreOk (complete { endCall s with rep := .written r' }) :=
  ⟨{ hr with rep := (isWritten_iff.2 ⟨f, hx.frame⟩).symm }, (stOk_calibrated rfl).2
    { phase := rfl, noCall := rfl, level, wawe := hx.wawe, mpe := hx.mpe }⟩

/-- The return of a transmission's call keeps the registers in order, and leads to the next position or to
`CALIBRATED`. -/
theorem SendOk.returned {s t : State} {f : Frame} {r : BitVec 3} {y : BitVec 5} {e : Event} (hx : SendOk s f r y)
    (hr : RegsOk s) (hs : s.st = .transmitting) (ho : s.outstanding = some e)
    (h : afterReturn Config.std e (endCall s) = .ok t) : CoreOk t := by
  have level := hx.outLevel_at_return hs ho
  rcases afterReturn_ok h with ⟨hc, -⟩ | ⟨-, hp, rfl⟩ | ⟨-, hp, rfl⟩ | ⟨-, hp, rfl⟩ | ⟨-, hp, y', hy, next⟩ |
    ⟨-, hp, r', hr', next⟩
  · exact absurd (hs.symm.trans hc) (by decide)
  all_goals rw [endCall_phase] at hp; rw [hp] at level
  · exact SendMoved.ok (s := s) rfl hr hx hs (by simp) hx.rep hx.sym hx.repBound hx.symBound (by simp) level
  · exact SendMoved.ok (s := s) rfl hr hx hs (by simp) hx.rep hx.sym hx.repBound hx.symBound (by simp) level
  · exact SendMoved.ok (s := s) rfl hr hx hs (by simp) hx.rep hx.sym hx.repBound hx.symBound (by simp) level
  · obtain rfl : y = y' := RegVal.written.inj (hx.sym.symm.trans hy)
    have bound := hx.symBound
    rcases next with ⟨more, rfl⟩ | ⟨last, rfl⟩
    · exact SendMoved.ok (s := s) rfl hr hx hs (by simp) hx.rep rfl hx.repBound (by bv_omega) (by simp) level
    · exact SendMoved.ok (s := s) rfl hr hx hs (by simp) hx.rep hx.sym hx.repBound bound (fun _ => by bv_omega) level
  · obtain rfl : r = r' := RegVal.written.inj (hx.rep.symm.trans hr')
    rcases next with ⟨more, rfl⟩ | ⟨-, rfl⟩
    · exact SendMoved.ok (s := s) rfl hr hx hs (by simp) rfl rfl more (by simp) (by simp) level
    · exact hx.completed hr level

/-! ### Every step keeps the invariant -/

/-- With a call outstanding, an operation is in flight. -/
theorem Inv.busy_of_call {s : State} {e : Event} (hi : Inv s) (ho : s.outstanding = some e) : s.st.busy = true := by
  have idle (h : s.outstanding = none) : False := by rw [h] at ho; cases ho
  cases hs : s.st with
  | uninit => exact (idle ((stOk_uninit hs).1 hi.state).noCall).elim
  | calibrating => rfl
  | calibrated => exact (idle ((stOk_calibrated hs).1 hi.state).noCall).elim
  | transmitting => rfl
  | faulted => exact (idle ((stOk_faulted hs).1 hi.state).noCall).elim

theorem inv_afterReturn {e : Event} {s t : State} (hi : Inv s) (ho : s.outstanding = some e)
    (h : afterReturn Config.std e (endCall s) = .ok t) : Inv t := by
  have hb := hi.busy_of_call ho
  have moved := afterReturn_returned h
  have parts : CoreOk t := by
    rcases (St.busy_iff _).1 hb with hs | hs
    · obtain ⟨k, n, hc⟩ := (stOk_calibrating hs).1 hi.state
      rw [afterReturn_calibrating (s := endCall s) hs hc.phase hc.step] at h
      exact hc.returned hi.regs hs ho h
    · obtain ⟨f, r, y, hx⟩ := (stOk_transmitting hs).1 hi.state
      exact hx.returned hi.regs hs ho h
  exact
    { faultRegs := moved.faultRegsOk { hi.faultRegs with } (by rintro hf; rw [endCall_st] at hf; rw [hf] at hb; cases hb)
      regs := parts.regs, state := parts.state
      answers := moved.answersOk hi.answers hb }

/-- The answer to an Encoder request counts with its acceptance. -/
theorem answersOk_answer {resp : Word32} {s : State} (h : AnswersOk s) : AnswersOk (respond resp (accept s)) := by
  unfold AnswersOk at *
  rw [respond_responses, List.length_append, List.length_singleton, Nat.add_right_comm]
  exact Nat.succ_le_succ h

theorem Act.inv {u t : State} (h : Act Config.std u t) (hi : Inv u) : Inv t := by
  cases h with
  | stay => exact hi
  | answer frame _ => exact SameRegs.inv (s := u) rfl hi (answersOk_answer hi.answers)
  | startCal hs => exact inv_startCalibration hi hs
  | send frame hs => exact inv_startSend hi hs
  | requestFault code w hs hcode hreq => exact inv_requestFault hi hs hcode hreq
  | call e clock ho hb he => exact inv_makeCall hi ho hb he
  | dummy clock ho _ he => exact inv_dummyStep hi ho he
  | returned e ho h => exact inv_afterReturn hi ho h
  | hwError e x w _ _ => exact inv_hwError hi
  | late => exact SameRegs.inv (s := u) rfl hi hi.answers

/-- Settles O49: a step is a reset, or a move of `Act` in a state with the same registers. -/
theorem invariantIsKeptByEveryStep : Obligations.InvariantIsKeptByEveryStep := by
  intro s t hi h
  rcases stepUnder_act h with ⟨rest, -, rfl⟩ | ⟨u, same, act⟩
  · exact inv_resetCore hi.answers
  · exact act.inv (same.inv hi)

end Sys2Proof.Machine
end

section
/-! Proofs of the state family (spec/10_state.md), part 2: no step stops from a state with the invariant, and every read of
an unwritten register stops. -/

namespace Sys2Proof.Machine

/-! ### No step stops -/

/-- Every symbol 0 to 17 has a pause (R96). -/
theorem pauseOf_isSome {c : Config} {y : BitVec 5} (f : Frame) (hy : y.toNat ≤ 17) : ∃ p, pauseOf c y f = some p := by
  unfold pauseOf
  split
  · exact ⟨_, rfl⟩
  · exact ⟨_, if_pos (by omega)⟩

/-- Every phase of a transmission names a call. -/
theorem SendOk.nextCall_isOk {s : State} {f : Frame} {r : BitVec 3} {y : BitVec 5} (hx : SendOk s f r y)
    (hs : s.st = .transmitting) (clock : Word32) : ∃ e, nextCall Config.std clock s = .ok (some e) := by
  obtain ⟨w, hw⟩ := isWritten_iff.1 hx.wawe
  obtain ⟨m, hm⟩ := isWritten_iff.1 hx.mpe
  obtain ⟨p, hp⟩ := pauseOf_isSome (c := Config.std) f hx.symBound
  cases hphase : s.phase with
  | idle => exact absurd hphase hx.phase.1
  | cal => exact absurd hphase hx.phase.2
  | markOn => simp [nextCall, hs, hphase]
  | markWait => simp [nextCall, hs, hphase, hw]
  | spaceOn => simp [nextCall, hs, hphase]
  | spaceWait => simp [nextCall, pauseCall, hs, hphase, hw, hm, hp, hx.frame, hx.sym]
  | gap => simp [nextCall, hs, hphase, hx.rep, hx.channel]

theorem Inv.nextCall_isOk {s : State} (hi : Inv s) (hb : s.st.busy = true) (clock : Word32) :
    ∃ o, nextCall Config.std clock s = .ok o := by
  rcases (St.busy_iff _).1 hb with hs | hs
  · obtain ⟨k, n, hc⟩ := (stOk_calibrating hs).1 hi.state
    exact ⟨_, hc.nextCall_eq hs clock⟩
  · obtain ⟨f, r, y, hx⟩ := (stOk_transmitting hs).1 hi.state
    obtain ⟨e, he⟩ := hx.nextCall_isOk hs clock
    exact ⟨_, he⟩

/-- The call of a sub-step can return: the readings `t0` and `t2` that its return may need are written. -/
theorem CalOk.afterCal_isOk {s : State} {k : CalStep} {n : BitVec 4} {e : Event} (hc : CalOk s k n)
    (hs : s.st = .calibrating) (ho : s.outstanding = some e) : ∃ t, afterCal Config.std e k (endCall s) = .ok t := by
  obtain ⟨clock, he⟩ := hc.call_eq hs ho
  cases k with
  | cLow => exact ⟨_, rfl⟩
  | cCarrier => exact ⟨_, rfl⟩
  | cT0 => cases he; exact ⟨_, rfl⟩
  | cAct => exact ⟨_, rfl⟩
  | cSlp => simp [afterCal, hc.count]
  | cT1 =>
    obtain ⟨a, ha⟩ := isWritten_iff.1 (hc.t0.2 (by decide))
    cases he; simp [afterCal, ha]
  | cInact => exact ⟨_, rfl⟩
  | cT2 => cases he; exact ⟨_, rfl⟩
  | cDummy => cases he
  | cT3 =>
    obtain ⟨a, ha⟩ := isWritten_iff.1 (hc.t2.2 (by decide))
    cases he; simp [afterCal, ha]
  | cSettle => exact ⟨_, rfl⟩

theorem SendOk.afterReturn_isOk {s : State} {f : Frame} {r : BitVec 3} {y : BitVec 5} (hx : SendOk s f r y)
    (hs : s.st = .transmitting) (e : Event) : ∃ t, afterReturn Config.std e (endCall s) = .ok t := by
  cases hphase : s.phase with
  | idle => exact absurd hphase hx.phase.1
  | cal => exact absurd hphase hx.phase.2
  | markOn => simp [afterReturn, hs, hphase]
  | markWait => simp [afterReturn, hs, hphase]
  | spaceOn => simp [afterReturn, hs, hphase]
  | spaceWait =>
    simp only [afterReturn, afterPause, endCall_st, endCall_phase, endCall_sym, hs, hphase, hx.sym, needReg_written]
    split <;> exact ⟨_, rfl⟩
  | gap =>
    simp only [afterReturn, afterGap, endCall_st, endCall_phase, endCall_rep, hs, hphase, hx.rep, needReg_written]
    split <;> exact ⟨_, rfl⟩

theorem Inv.afterReturn_isOk {s : State} {e : Event} (hi : Inv s) (ho : s.outstanding = some e) :
    ∃ t, afterReturn Config.std e (endCall s) = .ok t := by
  rcases (St.busy_iff _).1 (hi.busy_of_call ho) with hs | hs
  · obtain ⟨k, n, hc⟩ := (stOk_calibrating hs).1 hi.state
    rw [afterReturn_calibrating (s := endCall s) hs hc.phase hc.step]
    exact hc.afterCal_isOk hs ho
  · obtain ⟨f, r, y, hx⟩ := (stOk_transmitting hs).1 hi.state
    exact hx.afterReturn_isOk hs e

theorem Inv.takeHwError_isOk {s : State} {e : Event} (hi : Inv s) (ho : s.outstanding = some e) (x : HwErr) :
    ∃ t, takeHwError e x s = .ok t := by
  rcases (St.busy_iff _).1 (hi.busy_of_call ho) with hs | hs
  · simp [takeHwError, inFlightWord, hs]
  · obtain ⟨f, r, y, hx⟩ := (stOk_transmitting hs).1 hi.state
    simp [takeHwError, inFlightWord, hs, hx.frame]

theorem Inv.txStep_isNext {s : State} (hi : Inv s) (clock : Word32) : ∃ t, txStep Config.std clock s = .next t := by
  unfold txStep
  split
  · exact ⟨_, rfl⟩
  split
  · next hb =>
    obtain ⟨o, ho⟩ := hi.nextCall_isOk hb clock
    rw [ho]
    cases o with
    | none => exact ⟨_, rfl⟩
    | some e => exact ⟨_, rfl⟩
  · exact ⟨_, rfl⟩

theorem Inv.hwReturn_isNext {s : State} (hi : Inv s) (err : Option HwErr) : ∃ t, hwReturn Config.std err s = .next t := by
  cases ho : s.outstanding with
  | none => exact ⟨s, by simp [hwReturn, ho]⟩
  | some e =>
    cases err with
    | none =>
      obtain ⟨t, ht⟩ := hi.afterReturn_isOk ho
      exact ⟨t, by simp [hwReturn, ho, ht]⟩
    | some x =>
      obtain ⟨t, ht⟩ := hi.takeHwError_isOk ho x
      exact ⟨t, by simp [hwReturn, ho, ht]⟩

/-- Settles O50: a request always gives a next state, and the moves of the Transmitter and the HardwareChannel do under
the invariant. -/
theorem noStepStops : Obligations.NoStepStops := by
  intro s hi
  cases hscript : s.script with
  | nil =>
    have drawn : Inv (nextDraw s) := (nextDraw_same s).inv hi
    simp only [step, stepUnder, hscript, idleTurn]
    split
    · exact drawn.hwReturn_isNext _
    split
    · exact drawn.txStep_isNext _
    · exact ⟨_, rfl⟩
  | cons turn rest =>
    have taken : Inv (setScript rest s) := (setScript_same rest s).inv hi
    cases turn with
    | port w => rw [step_port hscript]; exact portTurn_isNext w _
    | reset => exact ⟨_, step_reset hscript⟩
    | txStep clock => rw [step_txStep hscript]; exact taken.txStep_isNext clock
    | hwReturn err => rw [step_hwReturn hscript]; exact taken.hwReturn_isNext err
    | lateReturn => exact ⟨_, step_lateReturn hscript⟩

/-! ### The read of an unwritten register stops -/

/-- Reading an unwritten register stops, whatever is done with its value. -/
theorem needReg_unwritten {α β : Type} {r : Reg} {v : RegVal α} {k : α → Except Fault β} (h : v.isWritten = false) :
    needReg r v k = .error (.unwritten r) := by
  cases v with
  | written a => cases h
  | fresh a => rfl

/-- A read stops on an unwritten register of its own, or on one that its continuation reads. -/
theorem needReg_stops {α β : Type} {r : Reg} {v : RegVal α} {k : α → Except Fault β} {P : Prop}
    (h : v.isWritten = false ∨ P) (hk : P → ∀ a, ∃ r', k a = .error (.unwritten r')) :
    ∃ r', needReg r v k = .error (.unwritten r') := by
  cases v with
  | fresh a => exact ⟨r, rfl⟩
  | written a => exact hk (h.resolve_left (by simp)) a

/-- A Transmitter step whose position names no call stops. -/
theorem step_txStep_stops {s : State} {clock : Word32} {rest : List Turn} {r : Fault}
    (hscript : s.script = .txStep clock :: rest) (ho : s.outstanding = none) (hb : s.st.busy = true)
    (h : nextCall Config.std clock s = .error r) : step s = .fault r := by
  have h' : nextCall Config.std clock (setScript rest s) = .error r := h
  rw [step_txStep hscript]
  simp [txStep, ho, hb, h']

/-- A return without an error whose position cannot move on stops. -/
theorem step_return_stops {s : State} {e : Event} {rest : List Turn} {r : Fault}
    (hscript : s.script = .hwReturn none :: rest) (ho : s.outstanding = some e)
    (h : afterReturn Config.std e (endCall (setScript rest s)) = .error r) : step s = .fault r := by
  rw [step_hwReturn hscript]
  simp [hwReturn, ho, h]

/-- The pause sleep reads `sym`, `f`, `wawe` and `mpe`. -/
theorem pauseCall_stops {c : Config} {s : State}
    (h : s.sym.isWritten = false ∨ s.f.isWritten = false ∨ s.wawe.isWritten = false ∨ s.mpe.isWritten = false) :
    ∃ r, pauseCall c s = .error (.unwritten r) :=
  needReg_stops h fun h _ => needReg_stops h fun h _ => needReg_stops h fun h _ => ⟨_, needReg_unwritten h⟩

/-- Settles O51: each read of the sequencer goes through `needReg`. -/
theorem unwrittenRegisterReadFaults : Obligations.UnwrittenRegisterReadFaults := by
  refine fun s rest => ⟨fun clock hscript ho => ?_, fun e hscript ho => ?_, fun e x hscript ho hs hf => ?_⟩
  · have stops {r : Fault} (hb : s.st.busy = true) := step_txStep_stops (r := r) hscript ho hb
    refine ⟨fun hs hp h => ?_, fun hs hp h => ?_, fun hs hp h => ?_, fun hs hp h => ?_⟩
    · exact stops (by rw [hs]; rfl) (by simp [nextCall, hs, hp, needReg_unwritten h])
    · exact stops (by rw [hs]; rfl) (by simp [nextCall, hs, hp, needReg_unwritten h])
    · obtain ⟨r, hr⟩ := pauseCall_stops (c := Config.std) h
      exact ⟨r, stops (by rw [hs]; rfl) (by simp [nextCall, hs, hp, hr])⟩
    · obtain ⟨r, hr⟩ : ∃ r, nextCall Config.std clock s = .error (.unwritten r) := by
        simp only [nextCall, hs, hp]
        exact needReg_stops h fun h _ => ⟨_, needReg_unwritten h⟩
      exact ⟨r, stops (by rw [hs]; rfl) hr⟩
  · have stops {r : Fault} := step_return_stops (r := r) hscript ho
    refine ⟨fun hs hp => ⟨fun h => ?_, fun hk h => ?_, ?_, ?_⟩, fun hs hp h => ?_, fun hs hp h => ?_⟩
    · exact stops (by simp [afterReturn, hs, hp, needReg_unwritten h])
    · exact stops (by simp [afterReturn, hs, hp, hk, afterCal, needReg_unwritten h])
    · rintro t rfl hk h
      exact stops (by simp [afterReturn, hs, hp, hk, afterCal, needReg_unwritten h])
    · rintro t rfl hk h
      exact stops (by simp [afterReturn, hs, hp, hk, afterCal, needReg_unwritten h])
    · exact stops (by simp [afterReturn, hs, hp, afterPause, needReg_unwritten h])
    · exact stops (by simp [afterReturn, hs, hp, afterGap, needReg_unwritten h])
  · rw [step_hwReturn hscript]
    simp [hwReturn, ho, takeHwError, inFlightWord, hs, needReg_unwritten hf]

end Sys2Proof.Machine
end

section
/-! Proofs of the state family (spec/10_state.md), part 3: the reset values, the `STATUS` word, the transitions of `st`, and
the profile after calibration. -/

namespace Sys2Proof.Machine

/-! ### `STATUS` and the side port -/

theorem statusWord_reset : statusWord State.reset = 0 := by decide

/-- Settles O29: the fields of `State.reset` one by one, and `STATUS` of them. -/
theorem resetValues : Obligations.ResetValues := by
  refine ⟨rfl, rfl, rfl, rfl, rfl, rfl, rfl, rfl, rfl, rfl, rfl, rfl, rfl, rfl, rfl, rfl, rfl, rfl, rfl, rfl, ?_⟩
  exact statusWord_reset

theorem statusWord_stField (s : State) : (statusWord s).extractLsb' 0 3 = s.st.code :=
  BitVec.extractLsb'_append_eq_right

theorem statusWord_faultBit (s : State) : (statusWord s).getLsbD 3 = statusFault s := by
  unfold statusWord
  rw [BitVec.getLsbD_append, if_neg (by decide), BitVec.getLsbD_append, if_pos (by decide)]
  simp

theorem statusWord_faultCodeField (s : State) : (statusWord s).extractLsb' 4 4 = statusFaultCode s := by
  unfold statusWord
  rw [BitVec.extractLsb'_append_eq_of_le (by decide), BitVec.extractLsb'_append_eq_of_le (by decide)]
  exact BitVec.extractLsb'_append_eq_right

theorem statusWord_calValidBit (s : State) : (statusWord s).getLsbD 8 = statusCalValid s := by
  unfold statusWord
  rw [BitVec.getLsbD_append, if_neg (by decide), BitVec.getLsbD_append, if_neg (by decide), BitVec.getLsbD_append,
    if_neg (by decide), BitVec.getLsbD_append, if_pos (by decide)]
  simp

theorem statusWord_rest (s : State) : (statusWord s).extractLsb' 9 23 = 0 := by
  unfold statusWord
  rw [BitVec.extractLsb'_append_eq_of_le (by decide), BitVec.extractLsb'_append_eq_of_le (by decide),
    BitVec.extractLsb'_append_eq_of_le (by decide)]
  exact BitVec.extractLsb'_append_eq_left

theorem statusFault_iff (s : State) : statusFault s = true ↔ s.st = .faulted := decide_eq_true_iff

theorem statusFaultCode_faulted {s : State} (h : s.st = .faulted) : statusFaultCode s = s.faultCode.code :=
  if_pos ((statusFault_iff s).2 h)

theorem statusFaultCode_of_not_faulted {s : State} (h : s.st ≠ .faulted) : statusFaultCode s = 0 :=
  if_neg (mt (statusFault_iff s).1 h)

/-- `STATUS` reads of the efforts only whether `mpe` is written. -/
theorem statusWord_efforts {s : State} {m : BitVec 28} (h : s.mpe = .written m) (w : RegVal (BitVec 29)) (m' : BitVec 28) :
    statusWord { s with wawe := w, mpe := .written m' } = statusWord s := by
  have valid : statusCalValid { s with wawe := w, mpe := .written m' } = statusCalValid s := by simp [statusCalValid, h]
  unfold statusWord
  rw [valid]
  rfl

/-- Settles O30: each field of `statusWord` is one of the words it is put together from. -/
theorem statusWordFields : Obligations.StatusWordFields := by
  refine fun s => ⟨statusWord_stField s, ?_, fun h => ?_, fun h => ?_, ?_, statusWord_rest s, statusWord_reset,
    ⟨rfl, rfl, rfl, rfl, rfl, rfl⟩, fun w m m' h => statusWord_efforts h w m', fun w h => ?_, fun e h => ?_⟩
  · rw [statusWord_faultBit, statusFault_iff]
  · rw [statusWord_faultCodeField, statusFaultCode_faulted h]
  · rw [statusWord_faultCodeField, statusFaultCode_of_not_faulted h]
  · rw [statusWord_calValidBit, statusCalValid]
  · rw [faultReqPort, h, sidePort_written]
  · rw [hwErrPort, h, sidePort_written]

/-! ### The transitions of `st` -/

/-- Only an operation in flight has a call that returns. -/
theorem afterReturn_busy {c : Config} {e : Event} {s t : State} (h : afterReturn c e s = .ok t) :
    s.st = .calibrating ∨ s.st = .transmitting := by
  rcases afterReturn_ok h with ⟨h, -⟩ | ⟨h, -⟩ | ⟨h, -⟩ | ⟨h, -⟩ | ⟨h, -⟩ | ⟨h, -⟩
  · exact .inl h
  all_goals exact .inr h

/-- The transitions of `st` (R23) without a reset: the acceptance of an operation, its completion, and a fault. -/
theorem Act.transition {c : Config} {u t : State} (h : Act c u t) (hne : u.st ≠ t.st) :
    (u.st = .uninit ∧ t.st = .calibrating) ∨ (u.st = .calibrating ∧ t.st = .calibrated) ∨
    (u.st = .calibrated ∧ t.st = .transmitting) ∨ (u.st = .transmitting ∧ t.st = .calibrated) ∨ t.st = .faulted := by
  cases h with
  | stay => exact absurd rfl hne
  | answer frame _ => exact absurd rfl hne
  | startCal hs => exact .inl ⟨hs, rfl⟩
  | send frame hs => exact .inr (.inr (.inl ⟨hs, rfl⟩))
  | requestFault code w _ _ _ => exact .inr (.inr (.inr (.inr rfl)))
  | call e clock _ _ _ => exact absurd rfl hne
  | dummy clock _ _ _ => exact absurd rfl hne
  | returned e _ h =>
    rcases (afterReturn_returned h).outcome with ⟨same, -⟩ | ⟨done, -⟩
    · exact absurd same.symm hne
    · rcases afterReturn_busy h with hs | hs
      · exact .inr (.inl ⟨hs, done⟩)
      · exact .inr (.inr (.inr (.inl ⟨hs, done⟩)))
  | hwError e x w _ _ => exact .inr (.inr (.inr (.inr rfl)))
  | late => exact absurd rfl hne

theorem SameCore.st_eq {s u : State} (h : SameCore s u) : u.st = s.st := by rw [h]

theorem SameCore.wawe_eq {s u : State} (h : SameCore s u) : u.wawe = s.wawe := by rw [h]

theorem SameCore.mpe_eq {s u : State} (h : SameCore s u) : u.mpe = s.mpe := by rw [h]

/-- Settles O32: a step is a reset, or a move of `Act` from the same `st`. -/
theorem onlyAllowedTransitions : Obligations.OnlyAllowedTransitions := by
  refine ⟨⟨rfl, rfl, rfl, rfl, rfl⟩, fun s t h hne => ?_⟩
  rcases stepUnder_act h with ⟨rest, hscript, rfl⟩ | ⟨u, same, act⟩
  · exact .inr (.inr (.inr (.inr (.inr ⟨rfl, rest, hscript⟩))))
  · rw [← same.st_eq] at hne ⊢
    rcases act.transition hne with h | h | h | h | h
    · exact .inl h
    · exact .inr (.inl h)
    · exact .inr (.inr (.inl h))
    · exact .inr (.inr (.inr (.inl h)))
    · exact .inr (.inr (.inr (.inr (.inl h))))

/-! ### The profile after calibration -/

/-- A state in which the calibration is over: the profile is fixed from here to reset (R26). -/
def PastCalibration (x : St) : Prop := x = .calibrated ∨ x = .transmitting ∨ x = .faulted

/-- The return of a transmission's call writes no effort. -/
theorem afterReturn_profile {c : Config} {e : Event} {s t : State} (hs : s.st ≠ .calibrating)
    (h : afterReturn c e s = .ok t) : t.wawe = s.wawe ∧ t.mpe = s.mpe := by
  rcases afterReturn_ok h with ⟨hc, -⟩ | ⟨-, -, rfl⟩ | ⟨-, -, rfl⟩ | ⟨-, -, rfl⟩ | ⟨-, -, y, -, ⟨-, rfl⟩ | ⟨-, rfl⟩⟩ |
    ⟨-, -, r, -, ⟨-, rfl⟩ | ⟨-, rfl⟩⟩
  · exact absurd hc hs
  all_goals exact ⟨rfl, rfl⟩

/-- Outside `CALIBRATING` no move but a reset writes an effort. -/
theorem Act.profile {c : Config} {u t : State} (h : Act c u t) (hs : u.st ≠ .calibrating) :
    t.wawe = u.wawe ∧ t.mpe = u.mpe := by
  cases h with
  | returned e _ h => exact afterReturn_profile (s := endCall u) hs h
  | hwError e x w _ _ => rw [blurLevel_frame]; exact ⟨rfl, rfl⟩
  | stay => exact ⟨rfl, rfl⟩
  | answer frame _ => exact ⟨rfl, rfl⟩
  | startCal _ => exact ⟨rfl, rfl⟩
  | send frame _ => exact ⟨rfl, rfl⟩
  | requestFault code w _ _ _ => exact ⟨rfl, rfl⟩
  | call e clock _ _ _ => exact ⟨rfl, rfl⟩
  | dummy clock _ _ _ => exact ⟨rfl, rfl⟩
  | late => exact ⟨rfl, rfl⟩

/-- Without a reset, calibration is over for good. -/
theorem Act.pastCalibration {c : Config} {u t : State} (h : Act c u t) (hs : PastCalibration u.st) :
    PastCalibration t.st := by
  by_cases same : u.st = t.st
  · exact same ▸ hs
  · rcases h.transition same with ⟨hu, -⟩ | ⟨-, ht⟩ | ⟨-, ht⟩ | ⟨-, ht⟩ | ht
    · rw [hu] at hs; simp [PastCalibration] at hs
    · exact .inl ht
    · exact .inr (.inl ht)
    · exact .inl ht
    · exact .inr (.inr ht)

/-- Settles O33: no move but a reset writes an effort or leaves these states, and `TX_INIT` is answered by the fault of
R107. -/
theorem profileIsFixedOnceCalibrated : Obligations.ProfileIsFixedOnceCalibrated := by
  refine ⟨fun s t hs noReset h => ?_, fun s hs => ⟨raiseFault .initTwice initWord s, ?_, rfl, rfl⟩⟩
  · rcases stepUnder_act h with ⟨rest, hscript, -⟩ | ⟨u, same, act⟩
    · exact absurd hscript (noReset rest)
    · have past : PastCalibration u.st := same.st_eq ▸ hs
      obtain ⟨wawe, mpe⟩ := act.profile (by rintro hu; rw [hu] at past; simp [PastCalibration] at past)
      exact ⟨wawe.trans same.wawe_eq, mpe.trans same.mpe_eq, act.pastCalibration past⟩
  · rcases hs with hs | hs <;> simp [exec, execTxInit, hs]

end Sys2Proof.Machine
end

section
/-! Proofs of the memory family (spec/20_memory.md): the word the Host gives runs next (R43), the trace is a total order of
calls (R44), and an Encoder request commutes with a move of the Transmitter (R46). -/

namespace Sys2Proof.Machine

/-! ### A fetched word -/

/-- A frame's `TX_SEND` word decodes to the `TX_SEND` of that frame (R56). -/
theorem decodeRequest_sendWord (f : Frame) : decodeRequest (sendWord f) = .ok (.txSend f) := by
  have op : opOf (sendWord f) = 0x9#4 := BitVec.eq_of_getLsbD_eq fun k hk => by
    simp only [opOf, sendWord, BitVec.getLsbD_extractLsb', BitVec.getLsbD_append]
    interval_cases k <;> simp
  have fits : rowTxSend.Fits (sendWord f) := by
    obtain ⟨w, hw, fits⟩ := Laws.MatchesRow.txSend f
    cases hw
    exact fits
  have frame : (sendWord f).extractLsb' 0 16 = f := BitVec.eq_of_getLsbD_eq fun k hk => by
    simp only [sendWord, BitVec.getLsbD_extractLsb', BitVec.getLsbD_append]
    simp [hk]
  simp [decodeRequest, op, fits, frame]

/-- On the request port a code word runs the instruction that the decoder reads from it; a frame does so as its `TX_SEND`
(R118; log 7). -/
theorem portTurn_requestWord {cw : CodeWord} {i : Instr} (h : decode cw = .ok i) (s : State) :
    portTurn (requestWord cw) s = exec i s := by
  cases cw with
  | request w =>
    have h : decodeRequest w = .ok i := h
    simp [portTurn, requestWord, h]
  | frame f =>
    cases h
    calc portTurn (sendWord f) s
      _ = sendFrame f s := by simp [portTurn, decodeRequest_sendWord, exec, execTxSend]
      _ = exec (decodeFrame f) s := (exec_decodeFrame f s).symm

theorem decodeTableWord_some {nbits w : Nat} {i : Instr} (h : decodeTableWord nbits w = some i) :
    decode (codeOf nbits w) = .ok i := by
  unfold decodeTableWord at h
  split at h
  · next hd => cases h; exact hd
  · cases h

/-- Settles O17: the word is the script's first entry, and taking it off gives `s` back. -/
theorem fetchedWordRunsNext : Obligations.FetchedWordRunsNext := by
  intro s nbits w i h
  calc step (s.withFetchWord nbits w)
    _ = portTurn (requestWord (codeOf nbits w)) s := step_port (s := s.withFetchWord nbits w) rfl
    _ = exec i s := portTurn_requestWord (decodeTableWord_some h) s

/-! ### The trace -/

theorem afterCal_trace {c : Config} {e : Event} {k : CalStep} {s t : State} (h : afterCal c e k s = .ok t) :
    t.trace = s.trace := by
  rcases afterCal_ok h with ⟨-, rfl⟩ | ⟨-, rfl⟩ | ⟨-, x, -, rfl⟩ | ⟨-, rfl⟩ | ⟨-, n, -, rfl⟩ | ⟨-, x, a, -, -, rfl⟩ |
    ⟨-, rfl⟩ | ⟨-, x, -, rfl⟩ | ⟨-, x, a, -, -, rfl⟩ | ⟨-, rfl⟩
  all_goals rfl

/-- A return adds no event: the event joined the trace when the call was made (log 4). -/
theorem afterReturn_trace {c : Config} {e : Event} {s t : State} (h : afterReturn c e s = .ok t) : t.trace = s.trace := by
  rcases afterReturn_ok h with ⟨-, -, k, -, h⟩ | ⟨-, -, rfl⟩ | ⟨-, -, rfl⟩ | ⟨-, -, rfl⟩ |
    ⟨-, -, y, -, ⟨-, rfl⟩ | ⟨-, rfl⟩⟩ | ⟨-, -, r, -, ⟨-, rfl⟩ | ⟨-, rfl⟩⟩
  case inl => exact afterCal_trace h
  all_goals rfl

/-- Only a call made adds an event, and it is made with no call outstanding. -/
theorem Act.trace {c : Config} {u t : State} (h : Act c u t) :
    t.trace = u.trace ∨ ∃ e, t.trace = u.trace ++ [e] ∧ u.outstanding = none ∧ t.outstanding = some e := by
  cases h with
  | call e clock ho _ _ => exact .inr ⟨e, rfl, ho, rfl⟩
  | returned e _ h => exact .inl (afterReturn_trace (s := endCall u) h)
  | hwError e x w _ _ => rw [blurLevel_frame]; exact .inl rfl
  | stay => exact .inl rfl
  | answer frame _ => exact .inl rfl
  | startCal _ => exact .inl rfl
  | send frame _ => exact .inl rfl
  | requestFault code w _ _ _ => exact .inl rfl
  | dummy clock _ _ _ => exact .inl rfl
  | late => exact .inl rfl

theorem SameCore.trace_eq {s u : State} (h : SameCore s u) : u.trace = s.trace := by rw [h]

theorem SameCore.outstanding_eq {s u : State} (h : SameCore s u) : u.outstanding = s.outstanding := by rw [h]

/-- Settles O35: a reset keeps the trace (log 6), and `Act.trace` says what every other move does to it. -/
theorem traceIsATotalOrderOfCalls : Obligations.TraceIsATotalOrderOfCalls := by
  intro s t h
  rcases stepUnder_act h with ⟨rest, -, rfl⟩ | ⟨u, same, act⟩
  · exact .inl rfl
  · rw [← same.trace_eq, ← same.outstanding_eq]
    exact act.trace

/-! ### The answer to an Encoder request -/

/-- An Encoder request is the answer of a frame that does not depend on the state (R73). -/
theorem exec_encoder {i : Instr} (h : isEncoder i = true) : ∃ frame, ∀ s, exec i s = answerFrame frame s := by
  cases i with
  | encSop ch out speed => exact ⟨_, fun _ => rfl⟩
  | encCd ch cmdR cmdB => exact ⟨_, fun _ => rfl⟩
  | encCp ch spdR spdB => exact ⟨_, fun _ => rfl⟩
  | txInit => cases h
  | txSend f => cases h
  | frameSop ch out n3 lrc => cases h
  | frameCd ch cmdB cmdR lrc => cases h
  | frameCp ch n2 n3 lrc => cases h

theorem answerFrame_of_faulted {s : State} (frame : Frame) (h : s.st = .faulted) : answerFrame frame s = .next s :=
  if_pos h

theorem answerFrame_of_not_faulted {s : State} (frame : Frame) (h : s.st ≠ .faulted) :
    answerFrame frame s = .next (respond (frame.setWidth 32) (accept s)) :=
  if_neg h

/-! ### A Transmitter step and an answer -/

theorem nextCall_answer (c : Config) (clock resp : Word32) (s : State) :
    nextCall c clock (respond resp (accept s)) = nextCall c clock s :=
  nextCall_congr c clock rfl rfl rfl rfl rfl rfl rfl rfl rfl

/-- A Transmitter step reads and writes no record of an answer. -/
theorem txStep_answer {c : Config} {clock : Word32} {s t : State} (h : txStep c clock s = .next t) (resp : Word32) :
    txStep c clock (respond resp (accept s)) = .next (respond resp (accept t)) := by
  unfold txStep at h ⊢
  rw [nextCall_answer, respond_outstanding, accept_outstanding, respond_st, accept_st]
  split at h
  · next ho => cases h; rw [if_pos ho]
  · next ho =>
    rw [if_neg ho]
    split at h
    · next hb =>
      rw [if_pos hb]
      split at h
      · cases h; rfl
      · cases h; rfl
      · cases h
    · next hb => cases h; rw [if_neg hb]

theorem txStep_st {c : Config} {clock : Word32} {s t : State} (h : txStep c clock s = .next t) : t.st = s.st := by
  rcases txStep_next h with rfl | ⟨-, -, ⟨e, -, rfl⟩ | ⟨-, rfl⟩⟩
  all_goals rfl

/-! ### A return and an answer -/

section
variable {c : Config} {e : Event} {s : State} (hs : s.st = .transmitting)
include hs

theorem afterReturn_markOn (hp : s.phase = .markOn) : afterReturn c e s = .ok { s with phase := .markWait } := by
  simp [afterReturn, hs, hp]

theorem afterReturn_markWait (hp : s.phase = .markWait) : afterReturn c e s = .ok { s with phase := .spaceOn } := by
  simp [afterReturn, hs, hp]

theorem afterReturn_spaceOn (hp : s.phase = .spaceOn) : afterReturn c e s = .ok { s with phase := .spaceWait } := by
  simp [afterReturn, hs, hp]

theorem afterReturn_spaceWait {y : BitVec 5} (hp : s.phase = .spaceWait) (hy : s.sym = .written y) :
    afterReturn c e s =
      if y < 17 then .ok { s with sym := .written (y + 1), phase := .markOn } else .ok { s with phase := .gap } := by
  simp [afterReturn, afterPause, hs, hp, hy]

theorem afterReturn_gap {r : BitVec 3} (hp : s.phase = .gap) (hr : s.rep = .written r) :
    afterReturn c e s =
      if (r + 1).toNat < c.repeats then .ok { s with rep := .written (r + 1), sym := .written 0, phase := .markOn }
      else .ok (complete { s with rep := .written (r + 1) }) := by
  simp [afterReturn, afterGap, hs, hp, hr]

end

/-- How a return that leads from `s` to a second state and an answer commute; the third state is where the same return
leads after the answer. A return that goes on gives one state in either order; one that completes the operation is
`complete` of a state `mid`, and the answer taken first stands before the completion. -/
inductive AnswerCommutes (resp : Word32) (s : State) : State → State → Prop
  | goesOn {t : State} : t.st = s.st → AnswerCommutes resp s t (respond resp (accept t))
  | completes (mid : State) : s.st.busy = true → mid.responses = s.responses →
      AnswerCommutes resp s (complete mid) (complete (respond resp (accept mid)))

theorem afterCal_answer {c : Config} {e : Event} {k : CalStep} {s t : State} (hs : s.st = .calibrating)
    (h : afterCal c e k s = .ok t) (resp : Word32) :
    ∃ t', afterCal c e k (respond resp (accept s)) = .ok t' ∧ AnswerCommutes resp s t t' := by
  rcases afterCal_ok h with ⟨rfl, rfl⟩ | ⟨rfl, rfl⟩ | ⟨rfl, x, rfl, rfl⟩ | ⟨rfl, rfl⟩ | ⟨rfl, n, hn, rfl⟩ |
    ⟨rfl, x, a, rfl, ha, rfl⟩ | ⟨rfl, rfl⟩ | ⟨rfl, x, rfl, rfl⟩ | ⟨rfl, x, a, rfl, ha, rfl⟩ | ⟨rfl, rfl⟩
  case inr.inr.inr.inr.inl => exact ⟨_, by simp only [afterCal, respond_calI, accept_calI, hn]; rfl, .goesOn rfl⟩
  case inr.inr.inr.inr.inr.inl => exact ⟨_, by simp only [afterCal, respond_t0, accept_t0, ha]; rfl, .goesOn rfl⟩
  case inr.inr.inr.inr.inr.inr.inr.inr.inl =>
    exact ⟨_, by simp only [afterCal, respond_t2, accept_t2, ha]; rfl, .goesOn rfl⟩
  case inr.inr.inr.inr.inr.inr.inr.inr.inr => exact ⟨_, rfl, .completes s (by rw [hs]; rfl) rfl⟩
  all_goals exact ⟨_, rfl, .goesOn rfl⟩

theorem afterReturn_answer {c : Config} {e : Event} {s t : State} (h : afterReturn c e s = .ok t) (resp : Word32) :
    ∃ t', afterReturn c e (respond resp (accept s)) = .ok t' ∧ AnswerCommutes resp s t t' := by
  rcases afterReturn_ok h with ⟨hs, hp, k, hk, h⟩ | ⟨hs, hp, rfl⟩ | ⟨hs, hp, rfl⟩ | ⟨hs, hp, rfl⟩ |
    ⟨hs, hp, y, hy, ⟨hl, rfl⟩ | ⟨hl, rfl⟩⟩ | ⟨hs, hp, r, hr, ⟨hl, rfl⟩ | ⟨hl, rfl⟩⟩
  · rw [afterReturn_calibrating (s := respond resp (accept s)) hs hp hk]
    exact afterCal_answer hs h resp
  · exact ⟨_, afterReturn_markOn hs hp, .goesOn rfl⟩
  · exact ⟨_, afterReturn_markWait hs hp, .goesOn rfl⟩
  · exact ⟨_, afterReturn_spaceOn hs hp, .goesOn rfl⟩
  · exact ⟨_, (afterReturn_spaceWait (s := respond resp (accept s)) hs hp hy).trans (if_pos hl), .goesOn rfl⟩
  · exact ⟨_, (afterReturn_spaceWait (s := respond resp (accept s)) hs hp hy).trans (if_neg hl), .goesOn rfl⟩
  · exact ⟨_, (afterReturn_gap (s := respond resp (accept s)) hs hp hr).trans (if_pos hl), .goesOn rfl⟩
  · exact ⟨_, (afterReturn_gap (s := respond resp (accept s)) hs hp hr).trans (if_neg hl),
      .completes { s with rep := .written (r + 1) } (by rw [hs]; rfl) rfl⟩

/-- A return with no call outstanding is ignored (R123). -/
theorem hwReturn_of_no_call {s : State} (c : Config) (err : Option HwErr) (h : s.outstanding = none) :
    hwReturn c err s = .next s := by
  simp [hwReturn, h]

/-- A return without an error moves the sequencer on. -/
theorem hwReturn_of_call {c : Config} {e : Event} {s t : State} (h : s.outstanding = some e)
    (ht : afterReturn c e (endCall s) = .ok t) : hwReturn c none s = .next t := by
  simp [hwReturn, h, ht]

theorem hwReturn_answer {c : Config} {s t : State} (h : hwReturn c none s = .next t) (resp : Word32) :
    ∃ t', hwReturn c none (respond resp (accept s)) = .next t' ∧ AnswerCommutes resp s t t' := by
  rcases hwReturn_next h with ⟨ho, rfl⟩ | ⟨e, ho, ⟨-, h⟩ | ⟨x, hx, -⟩⟩
  · exact ⟨_, hwReturn_of_no_call c none ho, .goesOn rfl⟩
  · obtain ⟨t', ht', commutes⟩ := afterReturn_answer h resp
    refine ⟨t', hwReturn_of_call (s := respond resp (accept s)) ho ht', ?_⟩
    cases commutes with
    | goesOn same => exact .goesOn same
    | completes mid busy responses => exact .completes mid busy responses
  · cases hx

/-- Settles O38: an Encoder request touches the responses and the count of accepted requests only. A Transmitter step
touches neither (`txStep_answer`), and a return only where it completes an operation (`hwReturn_answer`). -/
theorem encoderAndTransmitterCommute : Obligations.EncoderAndTransmitterCommute := by
  constructor
  · intro i s t u clock hi ht hu
    obtain ⟨frame, hexec⟩ := exec_encoder hi
    rw [hexec] at hu ⊢
    have same : t.st = s.st := txStep_st ht
    rcases answerFrame_next hu with ⟨hf, rfl⟩ | ⟨hf, rfl⟩
    · exact ⟨t, answerFrame_of_faulted frame (same.trans hf), ht⟩
    · exact ⟨_, answerFrame_of_not_faulted frame (same ▸ hf), txStep_answer ht _⟩
  · intro i s t u hi ht hu
    obtain ⟨frame, hexec⟩ := exec_encoder hi
    rw [hexec] at hu ⊢
    obtain ⟨t', ht', commutes⟩ := hwReturn_answer ht (frame.setWidth 32)
    cases commutes with
    | goesOn same =>
      refine ⟨fun _ => ?_, fun differ => absurd same differ⟩
      rcases answerFrame_next hu with ⟨hf, rfl⟩ | ⟨hf, rfl⟩
      · exact ⟨t, answerFrame_of_faulted frame (same.trans hf), ht⟩
      · exact ⟨_, answerFrame_of_not_faulted frame (same ▸ hf), ht'⟩
    | completes mid busy responses =>
      refine ⟨fun same => ?_, fun _ => ?_⟩
      · rw [← same] at busy
        cases busy
      · rcases answerFrame_next hu with ⟨hf, rfl⟩ | ⟨hf, rfl⟩
        · rw [hf] at busy
          cases busy
        · exact ⟨_, _, frame.setWidth 32, answerFrame_of_not_faulted frame (by simp), ht',
            by simp [responses], by simp [responses], rfl⟩

end Sys2Proof.Machine
end

section
/-! Proofs of the encoding family (spec/30_encoding.md): the fixed bits of a row name its operation (R51 to R57), a decoded
word has its operands in their fields (R58), decoding and encoding are inverse (R53 to R56, R60, R61), and the request
words are the assembler's formulas (R64). -/

namespace Sys2Proof

/-! ### Fixed bits -/

/-- Two rows whose fixed bits one word has agree on the bits that both fix. -/
theorem FixedBits.Fits.agree {n : Nat} {r q : FixedBits n} {w : BitVec n} (hr : r.Fits w) (hq : q.Fits w) :
    r.pattern &&& q.mask = q.pattern &&& r.mask := by
  rw [← hr, ← hq, BitVec.and_assoc, BitVec.and_assoc, BitVec.and_comm r.mask]

/-- A row that fixes all of `req[31:28]` fixes the operation (R51). -/
theorem FixedBits.Fits.opOf_eq {r : FixedBits 32} {w : Word32} (h : r.Fits w) (full : opOf r.mask = BitVec.allOnes 4) :
    opOf w = opOf r.pattern := by
  calc opOf w
    _ = opOf w &&& opOf r.mask := by rw [full, BitVec.and_allOnes]
    _ = opOf (w &&& r.mask) := BitVec.extractLsb'_and.symm
    _ = opOf r.pattern := by rw [h]

/-- No frame is of two variants (R61). -/
theorem not_frameSop_and_frameCd (f : Frame) : ¬(rowFrameSop.Fits f ∧ rowFrameCd.Fits f) :=
  fun ⟨h, h'⟩ => absurd (h.agree h') (by decide)

theorem not_frameSop_and_frameCp (f : Frame) : ¬(rowFrameSop.Fits f ∧ rowFrameCp.Fits f) :=
  fun ⟨h, h'⟩ => absurd (h.agree h') (by decide)

theorem not_frameCd_and_frameCp (f : Frame) : ¬(rowFrameCd.Fits f ∧ rowFrameCp.Fits f) :=
  fun ⟨h, h'⟩ => absurd (h.agree h') (by decide)

/-! ### A word with the fixed bits of a row decodes to that row -/

section
variable {w : Word32}

theorem decodeRequest_encSop (h : rowEncSop.Fits w) : decodeRequest w =
    .ok (.encSop (w.extractLsb' 24 2) (Output.ofCode (w.extractLsb' 16 1)) (speedOfField (w.extractLsb' 0 8))) := by
  have op : opOf w = 0x1#4 := h.opOf_eq (by decide)
  simp [decodeRequest, op, h]

theorem decodeRequest_encCd (h : rowEncCd.Fits w) : decodeRequest w =
    .ok (.encCd (w.extractLsb' 24 2) (Command.ofCode (w.extractLsb' 8 2)) (Command.ofCode (w.extractLsb' 0 2))) := by
  have op : opOf w = 0x2#4 := h.opOf_eq (by decide)
  simp [decodeRequest, op, h]

theorem decodeRequest_encCp (h : rowEncCp.Fits w) : decodeRequest w =
    .ok (.encCp (w.extractLsb' 24 2) (speedOfField (w.extractLsb' 8 8)) (speedOfField (w.extractLsb' 0 8))) := by
  have op : opOf w = 0x3#4 := h.opOf_eq (by decide)
  simp [decodeRequest, op, h]

theorem decodeRequest_txInit (h : rowTxInit.Fits w) : decodeRequest w = .ok .txInit := by
  have op : opOf w = 0x8#4 := h.opOf_eq (by decide)
  simp [decodeRequest, op, h]

theorem decodeRequest_txSend (h : rowTxSend.Fits w) : decodeRequest w = .ok (.txSend (w.extractLsb' 0 16)) := by
  have op : opOf w = 0x9#4 := h.opOf_eq (by decide)
  simp [decodeRequest, op, h]

end

section
variable {f : Frame}

theorem decodeFrame_frameSop (h : rowFrameSop.Fits f) : decodeFrame f =
    .frameSop (f.extractLsb' 12 2) (Output.ofCode (f.extractLsb' 8 1)) (f.extractLsb' 4 4) (f.extractLsb' 0 4) :=
  if_pos h

theorem decodeFrame_frameCd (h : rowFrameCd.Fits f) : decodeFrame f =
    .frameCd (f.extractLsb' 12 2) (Command.ofCode (f.extractLsb' 6 2)) (Command.ofCode (f.extractLsb' 4 2))
      (f.extractLsb' 0 4) := by
  have notSop : ¬rowFrameSop.Fits f := fun h' => not_frameSop_and_frameCd f ⟨h', h⟩
  exact (if_neg notSop).trans (if_pos h)

theorem decodeFrame_frameCp (h : rowFrameCp.Fits f) : decodeFrame f =
    .frameCp (f.extractLsb' 12 2) (f.extractLsb' 8 4) (f.extractLsb' 4 4) (f.extractLsb' 0 4) := by
  have notSop : ¬rowFrameSop.Fits f := fun h' => not_frameSop_and_frameCp f ⟨h', h⟩
  have notCd : ¬rowFrameCd.Fits f := fun h' => not_frameCd_and_frameCp f ⟨h', h⟩
  exact (if_neg notSop).trans ((if_neg notCd).trans (if_pos h))

/-- A frame of no variant is the `TX_SEND` of it (log 7). -/
theorem decodeFrame_noVariant (h : ¬(rowFrameSop.Fits f ∨ rowFrameCd.Fits f ∨ rowFrameCp.Fits f)) :
    decodeFrame f = .txSend f := by
  obtain ⟨notSop, notCd, notCp⟩ : ¬rowFrameSop.Fits f ∧ ¬rowFrameCd.Fits f ∧ ¬rowFrameCp.Fits f := by simpa using h
  exact (if_neg notSop).trans ((if_neg notCd).trans (if_neg notCp))

end

/-! ### The fields of an encoding -/

/-- Bits 13:12 of a single output PWM frame are its channel index (R60). -/
@[simp] theorem frameSopBits_channel (ch : BitVec 2) (out : Output) (n3 lrc : Nibble) :
    (frameSopBits ch out n3 lrc).extractLsb' 12 2 = ch := by
  simp (disch := decide) only [frameSopBits, BitVec.extractLsb'_append_eq_of_add_le, BitVec.extractLsb'_append_eq_of_le,
    Nat.reduceSub, BitVec.extractLsb'_eq_self]

/-- Bits 13:12 of a combo direct frame are its channel index (R60). -/
@[simp] theorem frameCdBits_channel (ch : BitVec 2) (cmdB cmdR : Command) (lrc : Nibble) :
    (frameCdBits ch cmdB cmdR lrc).extractLsb' 12 2 = ch := by
  simp (disch := decide) only [frameCdBits, BitVec.extractLsb'_append_eq_of_add_le, BitVec.extractLsb'_append_eq_of_le,
    Nat.reduceSub, BitVec.extractLsb'_eq_self]

/-- Bits 13:12 of a combo PWM frame are its channel index (R60). -/
@[simp] theorem frameCpBits_channel (ch : BitVec 2) (n2 n3 lrc : Nibble) :
    (frameCpBits ch n2 n3 lrc).extractLsb' 12 2 = ch := by
  simp (disch := decide) only [frameCpBits, BitVec.extractLsb'_append_eq_of_add_le, BitVec.extractLsb'_append_eq_of_le,
    Nat.reduceSub, BitVec.extractLsb'_eq_self]

/-- A single output PWM frame has the fixed bits of its row. -/
theorem frameSopBits_fits (ch : BitVec 2) (out : Output) (n3 lrc : Nibble) :
    rowFrameSop.Fits (frameSopBits ch out n3 lrc) := by
  obtain ⟨_, ⟨⟩, fits⟩ := Laws.MatchesRow.frameSop ch out n3 lrc
  exact fits

/-- A combo direct frame has the fixed bits of its row. -/
theorem frameCdBits_fits (ch : BitVec 2) (cmdB cmdR : Command) (lrc : Nibble) :
    rowFrameCd.Fits (frameCdBits ch cmdB cmdR lrc) := by
  obtain ⟨_, ⟨⟩, fits⟩ := Laws.MatchesRow.frameCd ch cmdB cmdR lrc
  exact fits

/-- A combo PWM frame has the fixed bits of its row. -/
theorem frameCpBits_fits (ch : BitVec 2) (n2 n3 lrc : Nibble) : rowFrameCp.Fits (frameCpBits ch n2 n3 lrc) := by
  obtain ⟨_, ⟨⟩, fits⟩ := Laws.MatchesRow.frameCp ch n2 n3 lrc
  exact fits

/-! ### Decoding an encoding -/

theorem decode_encode_encSop (ch : BitVec 2) (out : Output) {speed : Int} (h : speedInRange speed = true) :
    decode (encode (.encSop ch out speed)) = .ok (.encSop ch out speed) := by
  obtain ⟨_, ⟨⟩, fits⟩ := Laws.MatchesRow.encSop ch out speed
  refine (decodeRequest_encSop fits).trans ?_
  simp (disch := decide) only [BitVec.extractLsb'_append_eq_of_add_le, BitVec.extractLsb'_append_eq_of_le,
    Nat.reduceSub, BitVec.extractLsb'_eq_self, Output.ofCode_code, speedOfField_fieldOfSpeed h]

theorem decode_encode_encCd (ch : BitVec 2) (cmdR cmdB : Command) :
    decode (encode (.encCd ch cmdR cmdB)) = .ok (.encCd ch cmdR cmdB) := by
  obtain ⟨_, ⟨⟩, fits⟩ := Laws.MatchesRow.encCd ch cmdR cmdB
  refine (decodeRequest_encCd fits).trans ?_
  simp (disch := decide) only [BitVec.extractLsb'_append_eq_of_add_le, BitVec.extractLsb'_append_eq_of_le,
    Nat.reduceSub, BitVec.extractLsb'_eq_self, Command.ofCode_code]

theorem decode_encode_encCp (ch : BitVec 2) {spdR spdB : Int} (hR : speedInRange spdR = true)
    (hB : speedInRange spdB = true) : decode (encode (.encCp ch spdR spdB)) = .ok (.encCp ch spdR spdB) := by
  obtain ⟨_, ⟨⟩, fits⟩ := Laws.MatchesRow.encCp ch spdR spdB
  refine (decodeRequest_encCp fits).trans ?_
  simp (disch := decide) only [BitVec.extractLsb'_append_eq_of_add_le, BitVec.extractLsb'_append_eq_of_le,
    Nat.reduceSub, BitVec.extractLsb'_eq_self, speedOfField_fieldOfSpeed hR, speedOfField_fieldOfSpeed hB]

theorem decodeFrame_frameSopBits (ch : BitVec 2) (out : Output) (n3 lrc : Nibble) :
    decodeFrame (frameSopBits ch out n3 lrc) = .frameSop ch out n3 lrc := by
  rw [decodeFrame_frameSop (frameSopBits_fits ch out n3 lrc), frameSopBits_channel]
  simp (disch := decide) only [frameSopBits, BitVec.extractLsb'_append_eq_of_add_le,
    BitVec.extractLsb'_append_eq_of_le, Nat.reduceSub, BitVec.extractLsb'_eq_self, Output.ofCode_code]

theorem decodeFrame_frameCdBits (ch : BitVec 2) (cmdB cmdR : Command) (lrc : Nibble) :
    decodeFrame (frameCdBits ch cmdB cmdR lrc) = .frameCd ch cmdB cmdR lrc := by
  rw [decodeFrame_frameCd (frameCdBits_fits ch cmdB cmdR lrc), frameCdBits_channel]
  simp (disch := decide) only [frameCdBits, BitVec.extractLsb'_append_eq_of_add_le,
    BitVec.extractLsb'_append_eq_of_le, Nat.reduceSub, BitVec.extractLsb'_eq_self, Command.ofCode_code]

theorem decodeFrame_frameCpBits (ch : BitVec 2) (n2 n3 lrc : Nibble) :
    decodeFrame (frameCpBits ch n2 n3 lrc) = .frameCp ch n2 n3 lrc := by
  rw [decodeFrame_frameCp (frameCpBits_fits ch n2 n3 lrc), frameCpBits_channel]
  simp (disch := decide) only [frameCpBits, BitVec.extractLsb'_append_eq_of_add_le,
    BitVec.extractLsb'_append_eq_of_le, Nat.reduceSub, BitVec.extractLsb'_eq_self]

theorem wellFormed_encCp_iff {ch : BitVec 2} {spdR spdB : Int} :
    (Instr.encCp ch spdR spdB).WellFormed ↔ speedInRange spdR = true ∧ speedInRange spdB = true :=
  Bool.and_eq_true_iff

/-- Settles O11: an encoding has the fixed bits of its row (`Laws.MatchesRow`), so that row decodes it, and each field
reads back the operand that was put there. Only the speeds need the instruction to be well-formed. -/
theorem decodeOfEncodeIsTheInstruction : Obligations.DecodeOfEncodeIsTheInstruction := by
  intro i wf
  cases i with
  | encSop ch out speed => exact decode_encode_encSop ch out wf
  | encCd ch cmdR cmdB => exact decode_encode_encCd ch cmdR cmdB
  | encCp ch spdR spdB =>
    obtain ⟨hR, hB⟩ := wellFormed_encCp_iff.mp wf
    exact decode_encode_encCp ch hR hB
  | txInit => exact decodeRequest_txInit (w := initWord) (by decide)
  | txSend f => exact Machine.decodeRequest_sendWord f
  | frameSop ch out n3 lrc => exact congrArg Except.ok (decodeFrame_frameSopBits ch out n3 lrc)
  | frameCd ch cmdB cmdR lrc => exact congrArg Except.ok (decodeFrame_frameCdBits ch cmdB cmdR lrc)
  | frameCp ch n2 n3 lrc => exact congrArg Except.ok (decodeFrame_frameCpBits ch n2 n3 lrc)

/-! ### Encoding what was decoded -/

section
variable {w : Word32}

/-- The operands of an `ENC_SOP` word and the row's fixed bits are the whole word. -/
theorem encode_encSop_of_fits (h : rowEncSop.Fits w) :
    encode (.encSop (w.extractLsb' 24 2) (Output.ofCode (w.extractLsb' 16 1)) (speedOfField (w.extractLsb' 0 8))) =
      .request w := by
  simp only [encode, Output.code_ofCode, fieldOfSpeed_speedOfField]
  exact congrArg CodeWord.request <| BitVec.eq_of_getLsbD_eq fun k hk => by
    have hb := congrArg (fun z => z.getLsbD k) h
    revert hb
    simp only [BitVec.getLsbD_append, rowEncSop]
    interval_cases k <;> simp

/-- The operands of an `ENC_CD` word and the row's fixed bits are the whole word. -/
theorem encode_encCd_of_fits (h : rowEncCd.Fits w) :
    encode (.encCd (w.extractLsb' 24 2) (Command.ofCode (w.extractLsb' 8 2)) (Command.ofCode (w.extractLsb' 0 2))) =
      .request w := by
  simp only [encode, Command.code_ofCode]
  exact congrArg CodeWord.request <| BitVec.eq_of_getLsbD_eq fun k hk => by
    have hb := congrArg (fun z => z.getLsbD k) h
    revert hb
    simp only [BitVec.getLsbD_append, rowEncCd]
    interval_cases k <;> simp

/-- The operands of an `ENC_CP` word and the row's fixed bits are the whole word. -/
theorem encode_encCp_of_fits (h : rowEncCp.Fits w) :
    encode (.encCp (w.extractLsb' 24 2) (speedOfField (w.extractLsb' 8 8)) (speedOfField (w.extractLsb' 0 8))) =
      .request w := by
  simp only [encode, fieldOfSpeed_speedOfField]
  exact congrArg CodeWord.request <| BitVec.eq_of_getLsbD_eq fun k hk => by
    have hb := congrArg (fun z => z.getLsbD k) h
    revert hb
    simp only [BitVec.getLsbD_append, rowEncCp]
    interval_cases k <;> simp

/-- `TX_INIT` is one word (R56). -/
theorem rowTxInit_fits_iff : rowTxInit.Fits w ↔ w = initWord := by
  have mask : rowTxInit.mask = BitVec.allOnes 32 := by decide
  rw [FixedBits.Fits, mask, BitVec.and_allOnes]
  rfl

/-- The frame of a `TX_SEND` word and the row's fixed bits are the whole word. -/
theorem sendWord_of_fits (h : rowTxSend.Fits w) : sendWord (w.extractLsb' 0 16) = w :=
  BitVec.eq_of_getLsbD_eq fun k hk => by
    have hb := congrArg (fun z => z.getLsbD k) h
    revert hb
    simp only [sendWord, BitVec.getLsbD_append, rowTxSend]
    interval_cases k <;> simp

/-- A decoded request word gives a well-formed instruction, whose encoding is that word. -/
theorem encode_decodeRequest {i : Instr} (h : decodeRequest w = .ok i) : i.WellFormed ∧ encode i = .request w := by
  rcases decodeRequest_ok h with ⟨-, fits, rfl⟩ | ⟨-, fits, rfl⟩ | ⟨-, fits, rfl⟩ | ⟨-, fits, rfl⟩ | ⟨-, fits, rfl⟩
  · exact ⟨speedInRange_speedOfField _, encode_encSop_of_fits fits⟩
  · exact ⟨rfl, encode_encCd_of_fits fits⟩
  · exact ⟨wellFormed_encCp_iff.mpr ⟨speedInRange_speedOfField _, speedInRange_speedOfField _⟩, encode_encCp_of_fits fits⟩
  · exact ⟨rfl, congrArg CodeWord.request (rowTxInit_fits_iff.mp fits).symm⟩
  · exact ⟨rfl, congrArg CodeWord.request (sendWord_of_fits fits)⟩

end

/-- Every operand of a frame row fits its field. -/
theorem decodeFrame_wellFormed (f : Frame) : (decodeFrame f).WellFormed := by
  rcases decodeFrame_cases f with ⟨-, hd⟩ | ⟨-, hd⟩ | ⟨-, hd⟩ | hd
  all_goals rw [hd]; rfl

/-- A frame of one of the three variants is the encoding of what it decodes to. -/
theorem encode_decodeFrame {f : Frame} (h : rowFrameSop.Fits f ∨ rowFrameCd.Fits f ∨ rowFrameCp.Fits f) :
    encode (decodeFrame f) = .frame f := by
  rcases h with fits | fits | fits
  · rw [decodeFrame_frameSop fits]
    exact congrArg CodeWord.frame (frameSopBits_of_fits fits)
  · rw [decodeFrame_frameCd fits]
    exact congrArg CodeWord.frame (frameCdBits_of_fits fits)
  · rw [decodeFrame_frameCp fits]
    exact congrArg CodeWord.frame (frameCpBits_of_fits fits)

/-- Settles O12: the fixed bits of a row and the operands read from its fields are the whole word; a frame of no variant
is the `TX_SEND` of it (log 7). -/
theorem encodeOfDecodeIsTheWord : Obligations.EncodeOfDecodeIsTheWord := by
  refine ⟨fun w i h => encode_decodeRequest h, fun f i h => ?_⟩
  cases h
  refine ⟨decodeFrame_wellFormed f, encode_decodeFrame, fun noVariant => ?_⟩
  have send : decodeFrame f = .txSend f := decodeFrame_noVariant noVariant
  exact ⟨send, by rw [send]; rfl⟩

/-! ### Legal words -/

section
open Machine
variable {w : Word32}

theorem illegalWord_encSop (op : (w >>> 28).toNat = 1) : IllegalWord w ↔ ¬rowEncSop.Fits w := by
  simp [IllegalWord, op, rowEncSop]

theorem illegalWord_encCd (op : (w >>> 28).toNat = 2) : IllegalWord w ↔ ¬rowEncCd.Fits w := by
  simp [IllegalWord, op, rowEncCd]

theorem illegalWord_encCp (op : (w >>> 28).toNat = 3) : IllegalWord w ↔ ¬rowEncCp.Fits w := by
  simp [IllegalWord, op, rowEncCp]

theorem illegalWord_txInit (op : (w >>> 28).toNat = 8) : IllegalWord w ↔ ¬rowTxInit.Fits w := by
  simp [IllegalWord, op, rowTxInit_fits_iff, initWord]

theorem illegalWord_txSend (op : (w >>> 28).toNat = 9) : IllegalWord w ↔ ¬rowTxSend.Fits w := by
  simp [IllegalWord, op, rowTxSend]

/-- The operation of a legal word is one of the five of R52. -/
theorem op_of_legal (legal : ¬IllegalWord w) : (w >>> 28).toNat = 1 ∨ (w >>> 28).toNat = 2 ∨ (w >>> 28).toNat = 3 ∨
    (w >>> 28).toNat = 8 ∨ (w >>> 28).toNat = 9 := by
  have notReserved : ¬((w >>> 28).toNat = 0 ∨ (4 ≤ (w >>> 28).toNat ∧ (w >>> 28).toNat ≤ 7) ∨ 10 ≤ (w >>> 28).toNat) :=
    fun h => legal (.inl h)
  omega

/-- A legal word has the fixed bits of the row of its operation, so it decodes. -/
theorem decodeRequest_of_legal (legal : ¬IllegalWord w) : ∃ i, decodeRequest w = .ok i := by
  rcases op_of_legal legal with op | op | op | op | op
  · rw [illegalWord_encSop op, not_not] at legal
    exact ⟨_, decodeRequest_encSop legal⟩
  · rw [illegalWord_encCd op, not_not] at legal
    exact ⟨_, decodeRequest_encCd legal⟩
  · rw [illegalWord_encCp op, not_not] at legal
    exact ⟨_, decodeRequest_encCp legal⟩
  · rw [illegalWord_txInit op, not_not] at legal
    exact ⟨_, decodeRequest_txInit legal⟩
  · rw [illegalWord_txSend op, not_not] at legal
    exact ⟨_, decodeRequest_txSend legal⟩

/-- A word that decodes is legal. -/
theorem legal_of_decodeRequest {i : Instr} (h : decodeRequest w = .ok i) : ¬IllegalWord w := by
  rcases decodeRequest_ok h with ⟨op, fits, -⟩ | ⟨op, fits, -⟩ | ⟨op, fits, -⟩ | ⟨op, fits, -⟩ | ⟨op, fits, -⟩
  · rwa [illegalWord_encSop ((opOf_eq_iff w (by decide)).mp op), not_not]
  · rwa [illegalWord_encCd ((opOf_eq_iff w (by decide)).mp op), not_not]
  · rwa [illegalWord_encCp ((opOf_eq_iff w (by decide)).mp op), not_not]
  · rwa [illegalWord_txInit ((opOf_eq_iff w (by decide)).mp op), not_not]
  · rwa [illegalWord_txSend ((opOf_eq_iff w (by decide)).mp op), not_not]

/-- The decoder refuses exactly the illegal words of R57. -/
theorem decodeRequest_error_iff : (∃ e, decodeRequest w = .error e) ↔ IllegalWord w := by
  constructor
  · rintro ⟨e, he⟩
    by_contra legal
    obtain ⟨i, hi⟩ := decodeRequest_of_legal legal
    cases he.symm.trans hi
  · intro illegal
    cases hd : decodeRequest w with
    | ok i => exact absurd illegal (legal_of_decodeRequest hd)
    | error e => exact ⟨e, rfl⟩

end

/-- Settles O9: `decodeRequest_error_iff`, and the only move of the request port on a word that does not decode, outside
`FAULTED`, is the fault. -/
theorem illegalWordsRaiseIllegalRequest : Obligations.IllegalWordsRaiseIllegalRequest := by
  intro w
  refine ⟨decodeRequest_error_iff, fun s rest hs notFaulted illegal => ?_⟩
  obtain ⟨t, ht⟩ := Machine.portTurn_isNext w (Machine.setScript rest s)
  refine ⟨t, (Machine.step_port hs).trans ht, ?_⟩
  rcases Machine.portTurn_next ht with ⟨i, hi, -⟩ | ⟨e, -, ⟨faulted, -⟩ | ⟨-, rfl⟩⟩
  · exact absurd illegal (legal_of_decodeRequest hi)
  · exact absurd faulted notFaulted
  · exact ⟨rfl, rfl, rfl⟩

/-- The output a 1-bit field names is that of the word's bit (R58). -/
theorem Output.ofCode_bit (w : Word32) (k : Nat) :
    Output.ofCode (w.extractLsb' k 1) = if w.getLsbD k then .blue else .red := by
  have bit : w.extractLsb' k 1 = BitVec.ofBool (w.getLsbD k) := by
    ext i hi
    obtain rfl : i = 0 := by omega
    simp
  rw [bit]
  cases w.getLsbD k <;> rfl

/-- Settles O10: a legal word has the fixed bits of the row of its operation, and that row reads the fields of R58. -/
theorem operandsDecodeFromTheirFields : Obligations.OperandsDecodeFromTheirFields := by
  intro w legal
  refine ⟨fun op => ?_, fun op => ?_, fun op => ?_, fun op => ?_, fun op => ?_⟩
  · rw [illegalWord_encSop op, not_not] at legal
    rw [← Output.ofCode_bit]
    exact decodeRequest_encSop legal
  · rw [illegalWord_encCd op, not_not] at legal
    exact ⟨_, _, decodeRequest_encCd legal, Command.code_ofCode _, Command.code_ofCode _⟩
  · rw [illegalWord_encCp op, not_not] at legal
    exact decodeRequest_encCp legal
  · rw [illegalWord_txInit op, not_not] at legal
    exact decodeRequest_txInit legal
  · rw [illegalWord_txSend op, not_not] at legal
    exact decodeRequest_txSend legal

/-- Settles O15: `decodeRequest_ok` gives the operation of each row. -/
theorem opSelectsTheOperation : Obligations.OpSelectsTheOperation := by
  intro w i h
  rcases decodeRequest_ok h with ⟨op, -, rfl⟩ | ⟨op, -, rfl⟩ | ⟨op, -, rfl⟩ | ⟨op, -, rfl⟩ | ⟨op, -, rfl⟩
  all_goals exact (opOf_eq_iff w (by decide)).mp op

/-- Settles O14: the decoder is evaluated on each word. -/
theorem sampleWordsDecode : Obligations.SampleWordsDecode := by
  unfold Obligations.SampleWordsDecode
  decide

/-! ### The assembler's formulas -/

/-- `speed & 0xFF` is the speed's field (R64). -/
theorem ofInt_and_0xFF (v : Int) : BitVec.ofInt 32 v &&& 0xFF = (fieldOfSpeed v).setWidth 32 := by
  apply BitVec.eq_of_toNat_eq
  have low : ∀ n : Nat, n &&& 255 = n % 256 := fun n => Nat.and_two_pow_sub_one_eq_mod n 8
  simp [fieldOfSpeed, low]
  omega

/-- Operands whose fields do not overlap are placed by a sum as by shifts (`ENC_SOP`). -/
theorem ofNat_sopOperands (ch : BitVec 2) (out : BitVec 1) :
    BitVec.ofNat 32 (ch.toNat * 2 ^ 24 + out.toNat * 2 ^ 16) = ch.setWidth 32 <<< 24 ||| out.setWidth 32 <<< 16 := by
  revert ch out
  decide

/-- Operands whose fields do not overlap are placed by a sum as by shifts (`ENC_CD`). -/
theorem ofNat_cdOperands (ch r b : BitVec 2) :
    BitVec.ofNat 32 (ch.toNat * 2 ^ 24 + r.toNat * 2 ^ 8 + b.toNat) =
      ch.setWidth 32 <<< 24 ||| r.setWidth 32 <<< 8 ||| b.setWidth 32 := by
  revert ch r b
  decide

/-- A channel index is placed by a product as by a shift (`ENC_CP`). -/
theorem ofNat_cpChannel (ch : BitVec 2) : BitVec.ofNat 32 (ch.toNat * 2 ^ 24) = ch.setWidth 32 <<< 24 := by
  revert ch
  decide

/-- Settles O13: with the operands placed by shifts, each formula of R64 has the bits of its layout. -/
theorem requestWordsAreTheFormulas : Obligations.RequestWordsAreTheFormulas := by
  refine ⟨fun ch out v => ?_, fun ch r b => ?_, fun ch vR vB => ?_, rfl, fun f => ?_⟩
  · rw [ofNat_sopOperands, ofInt_and_0xFF]
    exact congrArg CodeWord.request <| BitVec.eq_of_getLsbD_eq fun k hk => by
      simp only [BitVec.getLsbD_append]
      interval_cases k <;> simp
  · rw [ofNat_cdOperands]
    exact congrArg CodeWord.request <| BitVec.eq_of_getLsbD_eq fun k hk => by
      simp only [BitVec.getLsbD_append]
      interval_cases k <;> simp
  · rw [ofNat_cpChannel, ofInt_and_0xFF, ofInt_and_0xFF]
    exact congrArg CodeWord.request <| BitVec.eq_of_getLsbD_eq fun k hk => by
      simp only [BitVec.getLsbD_append]
      interval_cases k <;> simp
  · exact congrArg CodeWord.request <| BitVec.eq_of_getLsbD_eq fun k hk => by
      simp only [sendWord, BitVec.getLsbD_append]
      interval_cases k <;> simp

end Sys2Proof
end

section
/-! Proofs of the encoding family (spec/30_encoding.md), part 2: the frames of the Encoder and of the frame rows (R60, R61,
R118). -/

namespace Sys2Proof.Machine

/-! ### The Encoder's frames -/

/-- The LRC is the XOR of the three upper nibbles, taken from `0xF`: XORed with them it gives `0xF` (R68). -/
theorem xor_lrcOf (n1 n2 n3 : Nibble) : n1 ^^^ n2 ^^^ n3 ^^^ lrcOf n1 n2 n3 = 0xF := by
  calc n1 ^^^ n2 ^^^ n3 ^^^ lrcOf n1 n2 n3
    _ = (n1 ^^^ n2 ^^^ n3) ^^^ ((n1 ^^^ n2 ^^^ n3) ^^^ 0xF) := by
      simp only [lrcOf, BitVec.xor_assoc, BitVec.xor_comm 0xF]
    _ = 0xF := by rw [← BitVec.xor_assoc, BitVec.xor_self, BitVec.zero_xor]

/-- A packed frame has a right LRC (R68). -/
theorem nibbleXor_packFrame (n1 n2 n3 : Nibble) : nibbleXor (packFrame n1 n2 n3) = 0xF := by
  simp (disch := decide) only [nibbleXor, packFrame, BitVec.extractLsb'_append_eq_of_add_le,
    BitVec.extractLsb'_append_eq_of_le, Nat.reduceSub, BitVec.extractLsb'_eq_self, xor_lrcOf]

/-- The frame of `ENC_SOP` has the layout of `FRAME_SOP` (R60). -/
theorem sopFrame_eq (ch : BitVec 2) (out : Output) (speed : Int) :
    sopFrame ch out speed =
      frameSopBits ch out (pfc speed) (lrcOf (ch.setWidth 4) (4 + out.code.setWidth 4) (pfc speed)) := by
  have high : ∀ (c : BitVec 2) (o : BitVec 1),
      c.setWidth 4 ++ (4 + o.setWidth 4 : Nibble) = 0#2 ++ c ++ 0b010#3 ++ o := by decide
  exact congrArg (· ++ pfc speed ++ lrcOf (ch.setWidth 4) (4 + out.code.setWidth 4) (pfc speed)) (high ch out.code)

/-- The frame of `ENC_CD` has the layout of `FRAME_CD` (R60). -/
theorem cdFrame_eq (ch : BitVec 2) (cmdR cmdB : Command) :
    cdFrame ch cmdR cmdB = frameCdBits ch cmdB cmdR
      (lrcOf (ch.setWidth 4) 0b0001 ((cmdB.code.setWidth 4 <<< 2) ||| cmdR.code.setWidth 4)) := by
  have high : ∀ c b r : BitVec 2, c.setWidth 4 ++ 0b0001#4 ++ ((b.setWidth 4 <<< 2) ||| r.setWidth 4 : Nibble) =
      0#2 ++ c ++ 0b0001#4 ++ b ++ r := by decide
  exact congrArg (· ++ lrcOf (ch.setWidth 4) 0b0001 ((cmdB.code.setWidth 4 <<< 2) ||| cmdR.code.setWidth 4))
    (high ch cmdB.code cmdR.code)

/-- The frame of `ENC_CP` has the layout of `FRAME_CP` (R60). -/
theorem cpFrame_eq (ch : BitVec 2) (spdR spdB : Int) :
    cpFrame ch spdR spdB = frameCpBits ch (pfc spdB) (pfc spdR) (lrcOf (4 + ch.setWidth 4) (pfc spdB) (pfc spdR)) := by
  have high : ∀ c : BitVec 2, (4 + c.setWidth 4 : Nibble) = 0b01#2 ++ c := by decide
  exact congrArg (· ++ pfc spdB ++ pfc spdR ++ lrcOf (4 + ch.setWidth 4) (pfc spdB) (pfc spdR)) (high ch)

/-- Outside `FAULTED` an Encoder request answers its frame. -/
theorem answerFrame_responses {frame : Frame} {s t : State} (h : answerFrame frame s = .next t) (hs : s.st ≠ .faulted) :
    t.responses = s.responses ++ [frame.setWidth 32] := by
  rw [answerFrame_of_not_faulted frame hs] at h
  cases h
  rfl

/-! ### A frame reaches the Transmitter -/

/-- In `CALIBRATED` a frame is accepted for transmission, whatever its bits are (R92, R100). -/
theorem sendFrame_calibrated (frame : Frame) {s : State} (h : s.st = .calibrated) :
    sendFrame frame s = .next (startSend frame (accept s)) := by
  simp [sendFrame, h]

/-- The logical channel is one more than the channel index, in ℕ (R94). -/
theorem logicalChannel_eq {frame : Frame} {ch : BitVec 2} (h : frame.extractLsb' 12 2 = ch) :
    logicalChannel frame = BitVec.ofNat 3 (1 + ch.toNat) := by
  have sum : ∀ c : BitVec 2, 1 + c.setWidth 3 = BitVec.ofNat 3 (1 + c.toNat) := by decide
  rw [logicalChannel, h, sum]

/-- Settles O8: two variants never fit one frame, the Encoder's frames have the layouts of the frame rows, and `TX_SEND`
latches the frame it is given. -/
theorem framesAreToldApartByFixedBits : Obligations.FramesAreToldApartByFixedBits := by
  refine ⟨fun f => ⟨not_frameSop_and_frameCd f, not_frameSop_and_frameCp f, not_frameCd_and_frameCp f⟩,
    fun ch out v s t hs h => ?_, fun ch cmdR cmdB s t hs h => ?_, fun ch vR vB s t hs h => ?_, fun f s hs => ?_⟩
  · refine ⟨sopFrame ch out v, answerFrame_responses h hs, ?_, ?_, nibbleXor_packFrame _ _ _⟩ <;> rw [sopFrame_eq]
    · exact frameSopBits_fits ..
    · exact frameSopBits_channel ..
  · refine ⟨cdFrame ch cmdR cmdB, answerFrame_responses h hs, ?_, ?_, nibbleXor_packFrame _ _ _⟩ <;> rw [cdFrame_eq]
    · exact frameCdBits_fits ..
    · exact frameCdBits_channel ..
  · refine ⟨cpFrame ch vR vB, answerFrame_responses h hs, ?_, ?_, nibbleXor_packFrame _ _ _⟩ <;> rw [cpFrame_eq]
    · exact frameCpBits_fits ..
    · exact frameCpBits_channel ..
  · exact ⟨_, sendFrame_calibrated f hs, rfl⟩

/-- A frame that carries channel index `ch` is accepted in `CALIBRATED`: what acceptance writes, and nothing else. -/
theorem sendFrame_accepted {frame : Frame} {ch : BitVec 2} {s : State} (hs : s.st = .calibrated)
    (hc : frame.extractLsb' 12 2 = ch) :
    sendFrame frame s = .next { s with
      st := .transmitting, phase := .markOn, f := .written frame, ch := .written (BitVec.ofNat 3 (1 + ch.toNat)),
      rep := .written 0, sym := .written 0, accepted := s.accepted + 1 } := by
  rw [sendFrame_calibrated frame hs, ← logicalChannel_eq hc]
  rfl

/-- Settles O20: a frame row sends the frame of its layout (log 7), whose bits 13:12 are the row's channel index. -/
theorem frameRowsAreSentInCalibrated : Obligations.FrameRowsAreSentInCalibrated := by
  intro ch out b r n2 n3 lrc s hs
  exact ⟨sendFrame_accepted hs (frameSopBits_channel ch out n3 lrc),
    sendFrame_accepted hs (frameCdBits_channel ch b r lrc),
    sendFrame_accepted hs (frameCpBits_channel ch n2 n3 lrc)⟩

end Sys2Proof.Machine
end

section
/-! Proofs of the encoder family (spec/40_encoder.md): the table of `pfc` (R65), the packed frame (R66, R68), and the answer
to each Encoder request (R69 to R74). -/

namespace Sys2Proof.Machine

/-! ### `pfc` -/

section
variable {v : Int}

theorem pfc_zero : pfc 0 = 0b1000 := rfl

theorem pfc_of_outside (h : v < -7 ∨ 7 < v) : pfc v = 0b0000 := by
  rw [pfc, if_neg (by omega), if_neg (by omega), if_neg (by omega)]

/-- The codes of the speeds are their 4-bit two's complement: `16 + v` has the bits of `v`. -/
theorem pfc_of_speed (hv : -7 ≤ v ∧ v ≤ 7) (h0 : v ≠ 0) : pfc v = BitVec.ofInt 4 v := by
  by_cases hpos : 1 ≤ v ∧ v ≤ 7
  · rw [pfc, if_pos hpos]
  · rw [pfc, if_neg hpos, if_neg h0, if_pos (by omega)]
    rw [BitVec.ofInt_add]
    exact BitVec.zero_add _

theorem pfc_toNat_of_speed (hv : -7 ≤ v ∧ v ≤ 7) (h0 : v ≠ 0) : ((pfc v).toNat : Int) = v % 16 := by
  rw [pfc_of_speed hv h0, BitVec.toNat_ofInt]
  omega

/-- A code read as two's complement gives its speed back. -/
theorem pfc_toInt_of_speed (hv : -7 ≤ v ∧ v ≤ 7) (h0 : v ≠ 0) : (pfc v).toInt = v := by
  rw [pfc_of_speed hv h0, BitVec.toInt_ofInt]
  exact Int.bmod_eq_of_le (by omega) (by omega)

/-- The two's complement of a code other than `0b0000` and `0b1000` is a speed with that code. -/
theorem pfc_of_toInt {k : Nibble} (hF : k ≠ 0b0000) (hB : k ≠ 0b1000) :
    (-7 ≤ k.toInt ∧ k.toInt ≤ 7) ∧ pfc k.toInt = k := by
  revert k
  decide

end

/-- Settles O1: between -7 and 7 a code is the two's complement of its speed, so `toInt` is the inverse of `pfc` there. -/
theorem pfcFollowsItsTable : Obligations.PfcFollowsItsTable := by
  refine ⟨fun v => ⟨fun hv => ?_, fun hv => hv ▸ pfc_zero, fun hv => ?_, pfc_of_outside⟩, fun k hF hB => ?_⟩
  · rw [pfc_toNat_of_speed (by omega) (by omega)]
    omega
  · rw [pfc_toNat_of_speed (by omega) (by omega)]
    omega
  · refine ⟨k.toInt, pfc_of_toInt hF hB, fun v ⟨hv, hk⟩ => ?_⟩
    have h0 : v ≠ 0 := fun h => hB (hk ▸ h ▸ pfc_zero)
    rw [← hk, pfc_toInt_of_speed hv h0]

/-! ### `packFrame` -/

/-- Four nibbles side by side are the nibbles shifted to their places (R37). -/
theorem append_nibbles (n1 n2 n3 n4 : Nibble) : n1 ++ n2 ++ n3 ++ n4 =
    (n1.setWidth 16 <<< 12) ||| (n2.setWidth 16 <<< 8) ||| (n3.setWidth 16 <<< 4) ||| n4.setWidth 16 :=
  BitVec.eq_of_getLsbD_eq fun k hk => by
    simp only [BitVec.getLsbD_append]
    interval_cases k <;> simp

/-- Settles O2: the nibbles of a frame lie side by side, the LRC lowest. -/
theorem packFrameIsTheFormula : Obligations.PackFrameIsTheFormula :=
  fun n1 n2 n3 => append_nibbles n1 n2 n3 (lrcOf n1 n2 n3)

/-- Settles O3: the LRC is chosen so that the four nibbles XOR to `0xF`. -/
theorem packedNibblesXorToF : Obligations.PackedNibblesXorToF := by
  refine ⟨fun n1 n2 n3 => ⟨nibbleXor_packFrame n1 n2 n3, ?_⟩, fun fr hfr n1 n2 n3 hpack => hfr ?_⟩
  · rw [nibbleXor_packFrame]
    exact BitVec.xor_self
  · rw [← hpack, nibbleXor_packFrame]

/-! ### The answers -/

/-- The operands of `ENC_SOP` as numbers (R69). -/
theorem sopFrame_ofNat (ch : BitVec 2) (out : Output) (speed : Int) : sopFrame ch out speed =
    packFrame (BitVec.ofNat 4 ch.toNat) (BitVec.ofNat 4 (4 + out.code.toNat)) (pfc speed) := by
  rw [sopFrame, BitVec.ofNat_add, BitVec.ofNat_toNat, BitVec.ofNat_toNat]
  rfl

/-- `(cmdB << 2) | cmdR` as a number: the two codes do not overlap (R70). -/
theorem comboCode_ofNat (b r : BitVec 2) :
    (b.setWidth 4 <<< 2 ||| r.setWidth 4 : Nibble) = BitVec.ofNat 4 (4 * b.toNat + r.toNat) := by
  revert b r
  decide

/-- The operands of `ENC_CD` as numbers (R70). -/
theorem cdFrame_ofNat (ch : BitVec 2) (cmdR cmdB : Command) : cdFrame ch cmdR cmdB =
    packFrame (BitVec.ofNat 4 ch.toNat) 0b0001 (BitVec.ofNat 4 (4 * cmdB.code.toNat + cmdR.code.toNat)) := by
  rw [cdFrame, comboCode_ofNat, BitVec.ofNat_toNat]

/-- The operands of `ENC_CP` as numbers (R71). -/
theorem cpFrame_ofNat (ch : BitVec 2) (spdR spdB : Int) : cpFrame ch spdR spdB =
    packFrame (BitVec.ofNat 4 (4 + ch.toNat)) (pfc spdB) (pfc spdR) := by
  rw [cpFrame, BitVec.ofNat_add, BitVec.ofNat_toNat]
  rfl

/-- What an Encoder request does in every state: the whole next state outside `FAULTED`, and nothing in it (R74, R107). -/
theorem answerFrame_effect (frame : Frame) (s : State) :
    (s.st ≠ .faulted → answerFrame frame s = .next { s with
      accepted := s.accepted + 1, responses := s.responses ++ [frame.setWidth 32] }) ∧
    (s.st = .faulted → answerFrame frame s = .next s) :=
  ⟨answerFrame_of_not_faulted frame, answerFrame_of_faulted frame⟩

/-- Settles O4: `ENC_SOP` is the answer of its frame, with the operands of R69. -/
theorem encSopAnswersItsFrame : Obligations.EncSopAnswersItsFrame := fun ch out speed s =>
  sopFrame_ofNat ch out speed ▸ answerFrame_effect (sopFrame ch out speed) s

/-- Settles O5: `ENC_CD` is the answer of its frame, with the operands of R70. -/
theorem encCdAnswersItsFrame : Obligations.EncCdAnswersItsFrame := fun ch cmdR cmdB s =>
  cdFrame_ofNat ch cmdR cmdB ▸ answerFrame_effect (cdFrame ch cmdR cmdB) s

/-- Settles O6: `ENC_CP` is the answer of its frame, with the operands of R71. -/
theorem encCpAnswersItsFrame : Obligations.EncCpAnswersItsFrame := fun ch spdR spdB s =>
  cpFrame_ofNat ch spdR spdB ▸ answerFrame_effect (cpFrame ch spdR spdB) s

/-- An answer changes the record of requests and responses alone. -/
theorem answerFrame_changes_record {frame : Frame} {s t : State} (h : answerFrame frame s = .next t) :
    t = { s with accepted := t.accepted, responses := t.responses } := by
  rcases answerFrame_next h with ⟨_, rfl⟩ | ⟨_, rfl⟩ <;> rfl

/-- Settles O7: an Encoder request is the answer of one frame, the same in every state. -/
theorem encoderIsPureAndDeterministic : Obligations.EncoderIsPureAndDeterministic := by
  intro i hi
  obtain ⟨frame, answers⟩ := exec_encoder hi
  refine ⟨fun s t h => answerFrame_changes_record (answers s ▸ h), frame.setWidth 32, fun s hs => ?_⟩
  exact ⟨_, (answers s).trans (answerFrame_of_not_faulted frame hs), rfl⟩

end Sys2Proof.Machine
end

section
/-! Proofs of the Transmitter family (spec/41_transmitter.md), part 1: the efforts, the compensated sleeps, the pauses, the
gaps and the logical channel, over the integers. -/

namespace Sys2Proof.Machine

/-! ### The efforts -/

/-- The modular difference of two clock readings, over the integers (R82, R85). -/
theorem clockDiff_toNat (a b : Word32) : ((b - a).toNat : Int) = ((b.toNat : Int) - a.toNat) % 2 ^ 32 := by
  bv_omega

/-- `wawe` keeps every bit of its quotient (R88). -/
theorem waweOf_toNat (a b : Word32) : (waweOf Config.std a b).toNat = (b - a).toNat / 8 := by
  have bound : (b - a).toNat / 8 < 2 ^ 29 := Nat.div_lt_of_lt_mul (b - a).isLt
  exact (BitVec.toNat_ofNat ..).trans (Nat.mod_eq_of_lt bound)

theorem mpeOf_eq (a b : Word32) : mpeOf Config.std a b = BitVec.ofNat 28 ((b - a).toNat / 16) :=
  congrArg (BitVec.ofNat 28) (Nat.shiftRight_eq_div_pow _ 4)

/-- `mpe` keeps every bit of its quotient (R88). -/
theorem mpeOf_toNat (a b : Word32) : (mpeOf Config.std a b).toNat = (b - a).toNat / 16 := by
  have bound : (b - a).toNat / 16 < 2 ^ 28 := Nat.div_lt_of_lt_mul (b - a).isLt
  rw [mpeOf_eq]
  exact (BitVec.toNat_ofNat ..).trans (Nat.mod_eq_of_lt bound)

/-- Settles O39: both registers hold their quotient whole, and the clock difference is a word. -/
theorem effortsAreTheQuotients : Obligations.EffortsAreTheQuotients := by
  intro a b
  rw [← clockDiff_toNat, waweOf_toNat, mpeOf_toNat]
  have word : (b - a).toNat < 2 ^ 32 := (b - a).isLt
  refine ⟨?_, ?_, ?_, ?_⟩ <;> omega

/-! ### The compensated sleeps -/

/-- A clamped sleep is computed in the integers: a word carries it (R90). -/
theorem clampSleep_toNat {d : Int} (h : d < 2 ^ 32) : ((clampSleep d).toNat : Int) = max 1 d := by
  rw [clampSleep, BitVec.toNat_ofInt]
  omega

theorem markSleep_toNat {m : Nat} (w : BitVec 29) (hm : m < 2 ^ 32) :
    ((markSleep m w).toNat : Int) = max 1 ((m : Int) - w.toNat) :=
  clampSleep_toNat (by omega)

theorem pauseSleep_toNat {p : Nat} (w : BitVec 29) (e : BitVec 28) (hp : p < 2 ^ 32) :
    ((pauseSleep p w e).toNat : Int) = max 1 ((p : Int) - w.toNat - e.toNat) :=
  clampSleep_toNat (by omega)

/-- Settles O40: no compensation lengthens a sleep, so the clamped difference still fits a word. -/
theorem sleepsAreCompensatedAndClamped : Obligations.SleepsAreCompensatedAndClamped :=
  fun _ _ w e hm hp => ⟨markSleep_toNat w hm, pauseSleep_toNat w e hp⟩

/-! ### The pauses -/

/-- The START and STOP symbols (R96). -/
theorem pauseOf_startStop {c : Config} {y : BitVec 5} (f : Frame) (h : y.toNat = 0 ∨ y.toNat = 17) :
    pauseOf c y f = some c.ssPauseUs :=
  if_pos h

/-- A symbol in 1..16 carries bit `16 − y` (R96). -/
theorem pauseOf_bit {c : Config} {y : BitVec 5} (f : Frame) (h : 1 ≤ y.toNat ∧ y.toNat ≤ 16) :
    pauseOf c y f = some (if f.getLsbD (16 - y.toNat) then c.highPauseUs else c.lowPauseUs) := by
  rw [pauseOf, if_neg (by omega), if_pos h.2]

/-- Settles O41: START and STOP, and the bit of every other symbol. -/
theorem symbolsCarryTheFrameBits : Obligations.SymbolsCarryTheFrameBits := fun f y =>
  ⟨fun h => pauseOf_startStop f (.inl h), pauseOf_bit f, fun h => pauseOf_startStop f (.inr h),
    pauseOf_bit f (y := 1) (by decide), pauseOf_bit f (y := 16) (by decide)⟩

/-- The sequencer's pause is the nominal pause of the symbol's number. -/
theorem pauseOf_eq_nominal {c : Config} {y : BitVec 5} (f : Frame) (h : y.toNat ≤ 17) :
    pauseOf c y f = some (nominalPause c f y.toNat) := by
  unfold nominalPause
  split
  · next ends => exact pauseOf_startStop f ends
  · next inner => exact pauseOf_bit f (by omega)

/-- START and STOP have the longest pause (R96). -/
theorem nominalPause_range (f : Frame) (k : Nat) :
    1 ≤ nominalPause Config.std f k ∧ nominalPause Config.std f k ≤ 1026 := by
  unfold nominalPause
  split
  · decide
  · split <;> decide

/-! ### The gaps -/

/-- The sequencer's gap is the nominal gap of the repetition and channel numbers. -/
theorem gap_eq_nominal (c : Config) (r n : BitVec 3) : gap c r n = BitVec.ofNat 32 (nominalGap c r.toNat n.toNat) := rfl

theorem nominalGap_std (r n : Nat) : nominalGap Config.std r n = (if r < 2 then 5 else 6 + 2 * n) * 16000 := rfl

/-- A gap fits a word, whatever the registers hold (R97). -/
theorem gap_toNat (r n : BitVec 3) : (gap Config.std r n).toNat = (if r.toNat < 2 then 5 else 6 + 2 * n.toNat) * 16000 := by
  have channel : n.toNat < 2 ^ 3 := n.isLt
  rw [gap_eq_nominal, nominalGap_std, BitVec.toNat_ofNat]
  split <;> omega

/-- The gap after an early repetition. -/
theorem gap_early {r : BitVec 3} (n : BitVec 3) (h : r.toNat < 2) : (gap Config.std r n).toNat = 80000 := by
  rw [gap_toNat, if_pos h]

/-- The gap after a later repetition. -/
theorem gap_late {r : BitVec 3} (n : BitVec 3) (h : 2 ≤ r.toNat) :
    (gap Config.std r n).toNat = (6 + 2 * n.toNat) * 16000 := by
  rw [gap_toNat, if_neg (by omega)]

/-- Settles O42: two early gaps and three late ones make the total of a channel. -/
theorem gapsPerChannel : Obligations.GapsPerChannel := by
  refine ⟨fun n _ _ => ?_, fun r n => ⟨gap_early n, gap_late n, ?_⟩⟩
  · rw [gap_early n (by decide), gap_early n (by decide), gap_late n (by decide), gap_late n (by decide),
      gap_late n (by decide)]
    omega
  · refine ⟨fun h hn => ?_, fun h hn => ?_, fun h hn => ?_, fun h hn => ?_⟩ <;> rw [gap_late n h, hn]

/-! ### The logical channel -/

theorem logicalChannel_toNat_eq (f : Frame) : (logicalChannel f).toNat = 1 + (f.extractLsb' 12 2).toNat := by
  rw [logicalChannel_eq rfl, BitVec.toNat_ofNat]
  have index : (f.extractLsb' 12 2).toNat < 2 ^ 2 := BitVec.isLt _
  omega

theorem logicalChannel_toNat (f : Frame) : (logicalChannel f).toNat = 1 + f.toNat / 2 ^ 12 % 4 := by
  rw [logicalChannel_toNat_eq, BitVec.extractLsb'_toNat, Nat.shiftRight_eq_div_pow]

/-- Bits 15:14 do not enter the channel index. -/
theorem channelIndex_masked (f : Frame) : (f &&& 0x3FFF).extractLsb' 12 2 = f.extractLsb' 12 2 :=
  BitVec.eq_of_getLsbD_eq fun k hk => by
    simp only [BitVec.getLsbD_extractLsb', BitVec.getLsbD_and]
    interval_cases k <;> simp

/-- Settles O43: the channel is a function of bits 13:12, and acceptance latches it with the frame. -/
theorem logicalChannelOfAFrame : Obligations.LogicalChannelOfAFrame := by
  intro f
  have value := logicalChannel_toNat f
  refine ⟨value, by omega, by omega, fun f' h => ?_, fun s hs => ⟨_, sendFrame_calibrated f hs, rfl⟩⟩
  rw [logicalChannel, logicalChannel, ← channelIndex_masked f, h, channelIndex_masked]

end Sys2Proof.Machine
end

section
/-! Proofs of the Transmitter family (spec/41_transmitter.md), part 2: the acceptance of a request, and what the sequencer
does at each position. -/

namespace Sys2Proof.Machine

/-! ### Acceptance -/

/-- Settles O18: acceptance is `startCalibration`. -/
theorem txInitIsAcceptedInUninit : Obligations.TxInitIsAcceptedInUninit := by
  intro s hs
  have accepted : execTxInit s = .next (startCalibration (accept s)) := by simp [execTxInit, hs]
  exact accepted

/-- Settles O19: `TX_SEND` sends its frame, whose bits 13:12 are the channel index. -/
theorem txSendIsAcceptedInCalibrated : Obligations.TxSendIsAcceptedInCalibrated := fun _ _ hs => sendFrame_accepted hs rfl

/-! ### A call made and a call returned, as the next event of the script -/

/-- A Transmitter step makes the call its position names. -/
theorem stepUnder_call {c : Config} {s : State} {e : Event} {clock : Word32} {rest : List Turn}
    (hscript : s.script = .txStep clock :: rest) (ho : s.outstanding = none) (hb : s.st.busy = true)
    (h : nextCall c clock s = .ok (some e)) : stepUnder c s = .next (makeCall e (setScript rest s)) := by
  have h' : nextCall c clock (setScript rest s) = .ok (some e) := h
  simp [stepUnder, hscript, takeTurn, txStep, ho, hb, h']

/-- A Transmitter step at a position that names no call is the silent one. -/
theorem stepUnder_dummy {c : Config} {s : State} {clock : Word32} {rest : List Turn}
    (hscript : s.script = .txStep clock :: rest) (ho : s.outstanding = none) (hb : s.st.busy = true)
    (h : nextCall c clock s = .ok none) : stepUnder c s = .next (dummyStep (setScript rest s)) := by
  have h' : nextCall c clock (setScript rest s) = .ok none := h
  simp [stepUnder, hscript, takeTurn, txStep, ho, hb, h']

/-- A return without an error moves the sequencer on. -/
theorem step_return {s t : State} {e : Event} {rest : List Turn} (hscript : s.script = .hwReturn none :: rest)
    (ho : s.outstanding = some e) (h : afterReturn Config.std e (endCall (setScript rest s)) = .ok t) :
    step s = .next t :=
  (step_hwReturn hscript).trans (hwReturn_of_call (s := setScript rest s) ho h)

/-! ### The phases of a transmission -/

section
variable {c : Config} {clock : Word32} {s : State} (hs : s.st = .transmitting)
include hs

theorem nextCall_markOn (hp : s.phase = .markOn) : nextCall c clock s = .ok (some (.level .active)) := by
  simp [nextCall, hs, hp]

theorem nextCall_markWait {w : BitVec 29} (hp : s.phase = .markWait) (hw : s.wawe = .written w) :
    nextCall c clock s = .ok (some (.sleep (markSleep c.markUs w))) := by
  simp [nextCall, hs, hp, hw]

theorem nextCall_spaceOn (hp : s.phase = .spaceOn) : nextCall c clock s = .ok (some (.level .inactive)) := by
  simp [nextCall, hs, hp]

/-- The pause sleep is that of the symbol's number (R89, R96). -/
theorem nextCall_spaceWait {f : Frame} {w : BitVec 29} {m : BitVec 28} {y : BitVec 5} (hp : s.phase = .spaceWait)
    (hf : s.f = .written f) (hw : s.wawe = .written w) (hm : s.mpe = .written m) (hy : s.sym = .written y)
    (bound : y.toNat ≤ 17) :
    nextCall c clock s = .ok (some (.sleep (pauseSleep (nominalPause c f y.toNat) w m))) := by
  simp [nextCall, pauseCall, hs, hp, hf, hw, hm, hy, pauseOf_eq_nominal f bound]

theorem nextCall_gap {r n : BitVec 3} (hp : s.phase = .gap) (hr : s.rep = .written r) (hn : s.ch = .written n) :
    nextCall c clock s = .ok (some (.sleep (gap c r n))) := by
  simp [nextCall, hs, hp, hr, hn]

end

/-- Settles O44: the call of the phase is made, and making it is the whole step. -/
theorem eachPhaseMakesItsCall : Obligations.EachPhaseMakesItsCall := by
  intro s clock rest f w m r n y hscript hs ho hf hn hr hy bound hw hm
  have made {e : Event} (h : nextCall Config.std clock s = .ok (some e)) : step s = _ :=
    stepUnder_call hscript ho (by rw [hs]; rfl) h
  refine ⟨fun hp => ?_, fun hp => ?_, fun hp => ?_, fun hp => ?_, fun hp => ?_⟩
  · exact made (nextCall_markOn hs hp)
  · exact made (nextCall_markWait hs hp hw)
  · exact made (nextCall_spaceOn hs hp)
  · exact made (nextCall_spaceWait hs hp hf hw hm hy bound)
  · exact made (nextCall_gap hs hp hr hn)

/-- Settles O45: the return is the move of the phase. -/
theorem eachReturnAdvancesTheSequencer : Obligations.EachReturnAdvancesTheSequencer := by
  intro s e rest r y hscript hs ho hr _ hy _
  have returned {t : State} := step_return (t := t) hscript ho
  have hs' : (endCall (setScript rest s)).st = .transmitting := hs
  refine ⟨fun hp => ?_, fun hp => ?_, fun hp => ?_, fun hp more => ?_, fun hp last => ?_, fun hp more => ?_, fun hp last => ?_⟩
  · exact returned (afterReturn_markOn hs' hp)
  · exact returned (afterReturn_markWait hs' hp)
  · exact returned (afterReturn_spaceOn hs' hp)
  · exact returned ((afterReturn_spaceWait hs' hp hy).trans (if_pos (by bv_omega)))
  · exact returned ((afterReturn_spaceWait hs' hp hy).trans (if_neg (by bv_omega)))
  · have next : (r + 1).toNat < Config.std.repeats := show (r + 1).toNat < 5 by bv_omega
    exact returned ((afterReturn_gap hs' hp hr).trans (if_pos next))
  · obtain rfl : r = 4 := BitVec.eq_of_toNat_eq last
    exact returned ((afterReturn_gap hs' hp hr).trans (if_neg (by decide)))

/-! ### The sub-steps of a calibration -/

/-- The position of a calibration names the call of its sub-step (R79). -/
theorem nextCall_calibrating {c : Config} {clock : Word32} {k : CalStep} {s : State} (hs : s.st = .calibrating)
    (hp : s.phase = .cal) (hk : s.calStep = .written k) : nextCall c clock s = .ok (calCall c clock k) := by
  simp [nextCall, hs, hp, hk]

/-- Settles O46: the call of the sub-step is made, and `C_DUMMY` is the silent step. -/
theorem eachSubstepMakesItsCall : Obligations.EachSubstepMakesItsCall := by
  intro s clock rest k hscript hs hp ho hk
  have hb : s.st.busy = true := by rw [hs]; rfl
  have named := nextCall_calibrating (c := Config.std) (clock := clock) hs hp hk
  have made {e : Event} (h : calCall Config.std clock k = some e) : step s = _ := stepUnder_call hscript ho hb (h ▸ named)
  refine ⟨?_, ?_, ?_, ?_, ?_, ?_, ?_⟩
  · rintro (rfl | rfl) <;> exact made rfl
  · rintro rfl; exact made rfl
  · rintro (rfl | rfl | rfl | rfl) <;> exact made rfl
  · rintro rfl; exact made rfl
  · rintro rfl; exact made rfl
  · rintro rfl; exact stepUnder_dummy hscript ho hb named
  · rintro rfl; exact made rfl

/-- The return of a loop's sleep counts the iteration and goes on to the next one (R82). -/
theorem afterCal_slp_more {c : Config} {e : Event} {n : BitVec 4} {s : State} (hn : s.calI = .written n)
    (h : (n + 1).toNat < c.calIter) :
    afterCal c e .cSlp s = .ok { s with calI := .written (n + 1), calStep := .written .cAct } := by
  simp only [afterCal, hn, needReg_written, if_pos h]

/-- The return of the last loop's sleep counts the iteration and goes on to `C_T1` (R82). -/
theorem afterCal_slp_last {c : Config} {e : Event} {n : BitVec 4} {s : State} (hn : s.calI = .written n)
    (h : ¬(n + 1).toNat < c.calIter) :
    afterCal c e .cSlp s = .ok { s with calI := .written (n + 1), calStep := .written .cT1 } := by
  simp only [afterCal, hn, needReg_written, if_neg h]

/-- The return of the clock at `C_T1` writes `wawe` (R82). -/
theorem afterCal_t1 {c : Config} {a t : Word32} {s : State} (ha : s.t0 = .written a) :
    afterCal c (.now t) .cT1 s = .ok { s with
      t1 := .written t, wawe := .written (waweOf c a t), calStep := .written (if c.calEndInactive then .cInact else .cT2) } := by
  simp [afterCal, ha]

/-- The return of the clock at `C_T3` writes `mpe` (R85). -/
theorem afterCal_t3 {c : Config} {a t : Word32} {s : State} (ha : s.t2 = .written a) :
    afterCal c (.now t) .cT3 s = .ok { s with
      t3 := .written t, mpe := .written (mpeOf c a t), calStep := .written .cSettle } := by
  simp [afterCal, ha]

/-- Settles O47: the return writes the registers of its sub-step. -/
theorem eachSubstepWritesItsRegisters : Obligations.EachSubstepWritesItsRegisters := by
  intro s e rest k hscript hs hp ho hk
  have returned {t : State} (h : afterCal Config.std e k (endCall (setScript rest s)) = .ok t) : step s = .next t :=
    step_return hscript ho ((afterReturn_calibrating (s := endCall (setScript rest s)) hs hp hk).trans h)
  refine ⟨?_, ?_, ?_, ?_, ?_, ?_, ?_, ?_, ?_, ?_, ?_⟩
  · rintro rfl; exact returned rfl
  · rintro rfl; exact returned rfl
  · rintro t rfl rfl; exact returned rfl
  · rintro rfl; exact returned rfl
  · rintro n rfl hn more
    have next : (n + 1).toNat < Config.std.calIter := show (n + 1).toNat < 8 by bv_omega
    exact returned (afterCal_slp_more hn next)
  · rintro rfl hn
    exact returned (afterCal_slp_last (c := Config.std) (s := endCall (setScript rest s)) hn (by decide))
  · rintro a t rfl rfl ha; exact returned (afterCal_t1 ha)
  · rintro rfl; exact returned rfl
  · rintro t rfl rfl; exact returned rfl
  · rintro a t rfl rfl ha
    rw [← mpeOf_eq]
    exact returned (afterCal_t3 ha)
  · rintro rfl; exact returned rfl

/-! ### How a transmission ends -/

/-- A transmission that no step has ended keeps its frame, its channel and the profile. -/
def SameSend (s t : State) : Prop :=
  t.st = .transmitting ∧ t.f = s.f ∧ t.ch = s.ch ∧ t.wawe = s.wawe ∧ t.mpe = s.mpe

/-- The last gap has returned: the transmission is answered (R99). -/
def SendDone (s t : State) : Prop :=
  t.st = .calibrated ∧ s.phase = .gap ∧ (∃ r, s.rep = .written r ∧ 4 ≤ r.toNat) ∧ t.responses = s.responses ++ [0]

theorem afterReturn_transmitting {e : Event} {s t : State} (hs : s.st = .transmitting)
    (h : afterReturn Config.std e s = .ok t) : SameSend s t ∨ SendDone s t := by
  rcases afterReturn_ok h with ⟨hc, -⟩ | ⟨-, -, rfl⟩ | ⟨-, -, rfl⟩ | ⟨-, -, rfl⟩ | ⟨-, -, y, -, ⟨-, rfl⟩ | ⟨-, rfl⟩⟩ |
    ⟨-, hp, r, hr, ⟨-, rfl⟩ | ⟨last, rfl⟩⟩
  · exact absurd (hs.symm.trans hc) (by decide)
  case inr.inr.inr.inr.inr.inr =>
    have last : ¬(r + 1).toNat < 5 := last
    exact .inr ⟨rfl, hp, ⟨r, hr, by bv_omega⟩, rfl⟩
  all_goals exact .inl ⟨hs, rfl, rfl, rfl, rfl⟩

/-- Without a reset a transmission goes on undisturbed, is done, or faults. -/
theorem Act.transmitting {u t : State} (h : Act Config.std u t) (hs : u.st = .transmitting) :
    SameSend u t ∨ SendDone u t ∨ t.st = .faulted := by
  have other {x : St} (hx : u.st = x) (ne : St.transmitting ≠ x) : False := ne (hs.symm.trans hx)
  cases h with
  | returned e _ h => exact (afterReturn_transmitting (s := endCall u) hs h).imp_right .inl
  | startCal hu => exact (other hu (by decide)).elim
  | send frame hu => exact (other hu (by decide)).elim
  | requestFault code w _ _ _ => exact .inr (.inr rfl)
  | hwError e x w _ _ => exact .inr (.inr rfl)
  | stay => exact .inl ⟨hs, rfl, rfl, rfl, rfl⟩
  | answer frame _ => exact .inl ⟨hs, rfl, rfl, rfl, rfl⟩
  | call e clock _ _ _ => exact .inl ⟨hs, rfl, rfl, rfl, rfl⟩
  | dummy clock _ _ _ => exact .inl ⟨hs, rfl, rfl, rfl, rfl⟩
  | late => exact .inl ⟨hs, rfl, rfl, rfl, rfl⟩

/-- Settles O34: a step is a reset, or a move of `Act` in a state with the same registers. -/
theorem transmissionIsNotDisturbed : Obligations.TransmissionIsNotDisturbed := by
  intro s t hs h
  rcases stepUnder_act h with ⟨rest, hscript, rfl⟩ | ⟨u, same, act⟩
  · exact .inr (.inr (.inr ⟨rfl, rest, hscript⟩))
  · have moved := act.transmitting (same.st_eq.trans hs)
    rw [same] at moved
    rcases moved with goesOn | done | faulted
    · exact .inl goesOn
    · exact .inr (.inl done)
    · exact .inr (.inr (.inl faulted))

end Sys2Proof.Machine
end

section
/-! Proofs of the Transmitter family (spec/41_transmitter.md), part 3: the bounds of every sleep request (R91), and the
requested sleeps of a message with a zero profile (R104). -/

namespace Sys2Proof.Machine

/-! ### The bounds of a sleep request -/

/-- The range of R91. -/
def SleepInRange (d : Word32) : Prop := 1 ≤ d.toNat ∧ d.toNat ≤ 224000

theorem markSleep_inRange (w : BitVec 29) : SleepInRange (markSleep 158 w) := by
  have value := markSleep_toNat w (m := 158) (by decide)
  constructor <;> omega

theorem pauseSleep_inRange {p : Nat} (w : BitVec 29) (m : BitVec 28) (h : p ≤ 1026) : SleepInRange (pauseSleep p w m) := by
  have value := pauseSleep_toNat w m (p := p) (by omega)
  constructor <;> omega

/-- The longest gap is that of channel 4 (R103). -/
theorem gap_inRange (r : BitVec 3) {n : BitVec 3} (h : n.toNat ≤ 4) : SleepInRange (gap Config.std r n) := by
  have value := gap_toNat r n
  split at value <;> constructor <;> omega

/-- START and STOP have the longest pause (R96). -/
theorem pauseOf_le {y : BitVec 5} {f : Frame} {p : Nat} (h : pauseOf Config.std y f = some p) : p ≤ 1026 := by
  unfold pauseOf at h
  split at h
  · cases h; exact Nat.le_refl _
  split at h
  · cases h; split <;> decide
  · cases h

theorem calCall_inRange {clock d : Word32} {k : CalStep} (h : calCall Config.std clock k = some (.sleep d)) :
    SleepInRange d := by
  cases k with
  | cSlp => cases h; constructor <;> decide
  | cSettle => cases h; constructor <;> decide
  | cLow => cases h
  | cCarrier => cases h
  | cT0 => cases h
  | cAct => cases h
  | cT1 => cases h
  | cInact => cases h
  | cT2 => cases h
  | cDummy => cases h
  | cT3 => cases h

/-- A sleep that the position names is in range where `ch` holds a channel. -/
theorem nextCall_inRange {clock d : Word32} {s : State} (h : nextCall Config.std clock s = .ok (some (.sleep d)))
    (channel : ∀ n, s.ch = .written n → n.toNat ≤ 4) : SleepInRange d := by
  rcases nextCall_ok h with ⟨-, -, k, -, hk⟩ | ⟨-, -, hd⟩ | ⟨-, -, w, -, hd⟩ | ⟨-, -, hd⟩ |
    ⟨-, -, y, f, w, m, p, -, -, -, -, hp, hd⟩ | ⟨-, -, r, n, -, hn, hd⟩
  · exact calCall_inRange hk.symm
  · cases hd
  · cases hd; exact markSleep_inRange w
  · cases hd
  · cases hd; exact pauseSleep_inRange w m (pauseOf_le hp)
  · cases hd; exact gap_inRange r (channel n hn)

/-- `ch` holds the logical channel of a frame (R94). -/
theorem RegsOk.channel_le {s : State} (h : RegsOk s) {n : BitVec 3} (hn : s.ch = .written n) : n.toNat ≤ 4 := by
  have latched : s.f.isWritten = true := h.channel.symm.trans (isWritten_iff.2 ⟨n, hn⟩)
  obtain ⟨f, hf⟩ := isWritten_iff.1 latched
  obtain rfl : n = logicalChannel f := RegVal.written.inj (hn.symm.trans (h.channelValue f hf))
  have value := logicalChannel_toNat f
  omega

/-- Under the invariant the position names the outstanding call (R16, R27). -/
theorem Inv.call_named {s : State} {e : Event} (hi : Inv s) (ho : s.outstanding = some e) :
    ∃ clock, nextCall Config.std clock s = .ok (some e) := by
  rcases (St.busy_iff _).1 (hi.busy_of_call ho) with hs | hs
  · obtain ⟨k, n, hc⟩ := (stOk_calibrating hs).1 hi.state
    exact hc.named e ho
  · obtain ⟨f, r, y, hx⟩ := (stOk_transmitting hs).1 hi.state
    exact hx.named e ho

/-- Settles O52: the only event a step adds is the call then outstanding (O35), which the position of the next state names
(O49). -/
theorem sleepRequestsStayBounded : Obligations.SleepRequestsStayBounded := by
  intro s t hi bounded h d hd
  have hi' : Inv t := invariantIsKeptByEveryStep s t hi h
  rcases traceIsATotalOrderOfCalls s t h with same | ⟨e, added, -, ho⟩
  · exact bounded d (same ▸ hd)
  · rw [added, List.mem_append, List.mem_singleton] at hd
    rcases hd with old | rfl
    · exact bounded d old
    · obtain ⟨clock, named⟩ := hi'.call_named ho
      exact nextCall_inRange named fun _ => hi'.regs.channel_le

/-! ### The duration of a message -/

theorem sleepSum_append (es es' : List Event) : sleepSum (es ++ es') = sleepSum es + sleepSum es' := by
  induction es with
  | nil => simp [sleepSum]
  | cons e es ih => cases e <;> simp [sleepSum, ih, Nat.add_assoc]

theorem sleepSum_flatMap {α : Type} (g : α → List Event) (xs : List α) :
    sleepSum (xs.flatMap g) = (xs.map fun x => sleepSum (g x)).sum := by
  induction xs with
  | nil => rfl
  | cons x xs ih => simp [sleepSum_append, ih]

/-- With a zero profile a pulse asks for its nominal mark and pause (R90). -/
theorem sleepSum_nominalPulse {p : Nat} (lower : 1 ≤ p) (upper : p ≤ 1026) :
    sleepSum (pulseEvents (markSleep 158 0) (pauseSleep p 0 0)) = 158 + p := by
  have mark := markSleep_toNat 0 (m := 158) (by decide)
  have pause := pauseSleep_toNat 0 0 (p := p) (by omega)
  have zeros : (0 : BitVec 29).toNat = 0 ∧ (0 : BitVec 28).toNat = 0 := ⟨rfl, rfl⟩
  simp only [pulseEvents, sleepSum]
  omega

/-- The nominal pause of a bit symbol, by the value of its bit. -/
theorem nominalPause_bit (f : Frame) {k : Nat} (h : k ≠ 0 ∧ k ≠ 17) :
    nominalPause Config.std f k = 263 + 290 * (f.getLsbD (16 - k)).toNat := by
  rw [nominalPause, if_neg (by omega)]
  cases f.getLsbD (16 - k) <;> rfl

/-- The requested sleeps of symbol `k` of a frame, with a zero profile (R104). -/
def symbolSleep (f : Frame) (k : Nat) : Nat := 158 + nominalPause Config.std f k

theorem sleepSum_pulsesEvents (f : Frame) (n : Nat) :
    sleepSum (pulsesEvents Config.std f 0 0 n) = ((List.range n).map (symbolSleep f)).sum := by
  rw [pulsesEvents, sleepSum_flatMap]
  congr 2
  funext k
  obtain ⟨lower, upper⟩ := nominalPause_range f k
  exact sleepSum_nominalPulse lower upper

/-- A sum over bits that adds `b` for a 1. -/
theorem sum_bits {α : Type} (a b : Nat) (p : α → Bool) (xs : List α) :
    (xs.map fun x => a + b * (p x).toNat).sum = xs.length * a + b * (xs.filter p).length := by
  induction xs with
  | nil => simp
  | cons x xs ih =>
    rw [List.map_cons, List.sum_cons, ih, List.length_cons, Nat.succ_mul]
    cases hx : p x <;> simp [hx, Nat.mul_succ] <;> omega

/-- START and STOP take 1184 µs each; a bit takes 421 µs, and 290 µs more if it is 1. The bits are sent from 15 down. -/
theorem sum_symbolSleep (f : Frame) :
    ((List.range 18).map (symbolSleep f)).sum = 2 * 1184 + (16 * 421 + 290 * onesOf f) := by
  have symbols : List.range 18 = 0 :: (List.range 16).reverse.map (16 - ·) ++ [17] := by decide
  have ends {k : Nat} (h : k = 0 ∨ k = 17) : symbolSleep f k = 1184 := by
    rw [symbolSleep, nominalPause, if_pos h]; rfl
  have bit : ∀ j ∈ List.range 16, symbolSleep f (16 - j) = 421 + 290 * (f.getLsbD j).toNat := fun j hj => by
    have bound := List.mem_range.1 hj
    rw [symbolSleep, nominalPause_bit f (by omega), Nat.sub_sub_self (by omega), ← Nat.add_assoc]
  have bits : (((List.range 16).reverse.map (16 - ·)).map (symbolSleep f)).sum = 16 * 421 + 290 * onesOf f := calc
    _ = ((List.range 16).map fun j => symbolSleep f (16 - j)).sum := by
      rw [List.map_map]; exact ((List.reverse_perm _).map _).sum_eq
    _ = ((List.range 16).map fun j => 421 + 290 * (f.getLsbD j).toNat).sum := by rw [List.map_congr_left bit]
    _ = 16 * 421 + 290 * onesOf f := sum_bits 421 290 _ _
  rw [symbols, List.map_append, List.sum_append, List.map_cons, List.sum_cons, bits, ends (.inl rfl), List.map_singleton,
    List.sum_singleton, ends (.inr rfl)]
  omega

theorem onesOf_le (f : Frame) : onesOf f ≤ 16 := by
  have bound := List.length_filter_le (fun k => f.getLsbD k) (List.range 16)
  rwa [List.length_range] at bound

/-- Settles O56: the sum is linear in the number of 1 bits, which is at most 16. -/
theorem nominalMessageDuration : Obligations.NominalMessageDuration := by
  intro f
  have ones := onesOf_le f
  rw [sleepSum_pulsesEvents, sum_symbolSleep]
  refine ⟨?_, ?_, ?_⟩ <;> omega

end Sys2Proof.Machine
end

section
/-! Proofs of the Transmitter family (spec/41_transmitter.md), part 4: the run of an uninterrupted `TX_INIT` (R78, R87), for
every parameter set whose loop the 4-bit counter can count. -/

namespace Sys2Proof.Machine

/-! ### Runs of calls -/

theorem runUnder_trans {c : Config} {s t u : State} {n m : Nat} (h : runUnder c n s = .next t)
    (h' : runUnder c m t = .next u) : runUnder c (n + m) s = .next u :=
  (runUnder_add n m h).trans h'

theorem runUnder_one {c : Config} {s t : State} (h : stepUnder c s = .next t) : runUnder c 1 s = .next t :=
  runUnder_succ 0 h

theorem stepUnder_port {c : Config} {s : State} {w : Word32} {rest : List Turn} (h : s.script = .port w :: rest) :
    stepUnder c s = portTurn w (setScript rest s) := by
  simp [stepUnder, h, takeTurn]

/-- What the calls with events `es` leave in `out_level`. -/
def levelAfter (es : List Event) (l : OutLevel) : OutLevel := es.foldl (fun l e => e.shadow l) l

theorem levelAfter_append (es es' : List Event) (l : OutLevel) :
    levelAfter (es ++ es') l = levelAfter es' (levelAfter es l) :=
  List.foldl_append

/-- `s` after the calls with events `es` were made and have returned, with the script `ts`; the registers that the returns
write are not moved. -/
def emitted (es : List Event) (ts : List Turn) (s : State) : State :=
  { s with trace := s.trace ++ es, outLevel := levelAfter es s.outLevel, script := ts }

theorem emitted_nil (ts : List Turn) (s : State) : emitted [] ts s = setScript ts s := by
  rw [emitted, List.append_nil]
  rfl

theorem append_pair (es : List Event) (a b : Event) : es ++ [a, b] = es ++ [a] ++ [b] := by simp

theorem append_triple (es : List Event) (a b d : Event) : es ++ [a, b, d] = es ++ [a] ++ [b] ++ [d] := by simp

/-! ### The sub-steps of a calibration -/

/-- `s` in `CALIBRATING` at sub-step `k` with the loop counter at `n`, after the events `es`, with the script `ts`. -/
def calAt (s : State) (k : CalStep) (n : BitVec 4) (es : List Event) (ts : List Turn) : State :=
  { emitted es ts s with st := .calibrating, phase := .cal, calStep := .written k, calI := .written n }

theorem emitted_calAt (s : State) (k : CalStep) (n : BitVec 4) (es es' : List Event) (ts ts' : List Turn) :
    emitted es' ts' (calAt s k n es ts) = calAt s k n (es ++ es') ts' := by
  simp [calAt, emitted, levelAfter_append]

/-- The return of `C_T0` (R81), with the loop counter apart. -/
def writeT0 (t0 : Word32) (s : State) : State := { s with t0 := .written t0 }

/-- The return of `C_T1` after the reading `t0` (R82). -/
def writeT1 (c : Config) (t0 t1 : Word32) (s : State) : State :=
  { s with t1 := .written t1, wawe := .written (waweOf c t0 t1) }

/-- The return of `C_T2` (R84). -/
def writeT2 (t2 : Word32) (s : State) : State := { s with t2 := .written t2 }

/-- The return of `C_T3` after the reading `t2` (R85). -/
def writeT3 (c : Config) (t2 t3 : Word32) (s : State) : State :=
  { s with t3 := .written t3, mpe := .written (mpeOf c t2 t3) }

/-- The events up to `C_T0` (R80, R81). -/
def startEvents (c : Config) (t0 : Word32) : List Event := [.level .inactive, .carrier c.carrierPeriodTicks, .now t0]

/-- The events of one iteration of the calibration loop (R82). -/
def iterEvents (c : Config) : List Event := [.level .active, .sleep (BitVec.ofNat 32 c.calSleepUs)]

/-- The events of `C_T1`, and of `C_INACT` where `CAL_END_INACTIVE` says so (R82, R83). -/
def endEvents (c : Config) (t1 : Word32) : List Event := .now t1 :: if c.calEndInactive then [.level .inactive] else []

/-- The draws of those calls: `C_INACT` ignores its own, `k`. -/
def endDraws (c : Config) (k t1 : Word32) : List Word32 := t1 :: if c.calEndInactive then [k] else []

/-- The events from `C_T2` to `C_SETTLE` (R84 to R86). -/
def settleEvents (c : Config) (t2 t3 : Word32) : List Event :=
  [.now t2, .now t3, .sleep (BitVec.ofNat 32 c.settleUs)]

/-- The turns from `C_T2` to `C_SETTLE`: `C_DUMMY` takes one step and has no return. -/
def settleTurns (k t2 t3 : Word32) : List Turn := calls [t2] ++ [Turn.txStep k] ++ calls [t3, k]

theorem initEvents_eq (c : Config) (t0 t1 t2 t3 : Word32) : initEvents c t0 t1 t2 t3 =
    startEvents c t0 ++ (List.replicate c.calIter (iterEvents c)).flatten ++ endEvents c t1 ++ settleEvents c t2 t3 := by
  simp [initEvents, startEvents, iterEvents, endEvents, settleEvents]

section
variable {c : Config} {s : State} {n : BitVec 4} (ho : s.outstanding = none) (es : List Event) (ts : List Turn)
include ho

/-- The call of a sub-step is made and returns: two steps. -/
theorem run_substep {t : State} {k : CalStep} {x : Word32} {xs : List Word32} {e : Event} (call : calCall c x k = some e)
    (h : afterCal c e k (calAt s k n (es ++ [e]) (calls xs ++ ts)) = .ok t) :
    runUnder c 2 (calAt s k n es (calls (x :: xs) ++ ts)) = .next t := by
  have returns : afterReturn c e (emitted [e] (calls xs ++ ts) (calAt s k n es (calls (x :: xs) ++ ts))) = .ok t := by
    rw [emitted_calAt, afterReturn_calibrating rfl rfl rfl, h]
  exact call_and_return rfl ho rfl ((nextCall_calibrating rfl rfl rfl).trans (congrArg _ call)) returns

/-- `C_LOW`, `C_CARRIER` and `C_T0`. -/
theorem run_calStart (k k' t0 : Word32) : runUnder c 6 (calAt s .cLow n es (calls [k, k', t0] ++ ts)) =
    .next (calAt (writeT0 t0 s) .cAct 0 (es ++ startEvents c t0) ts) := by
  have low := run_substep (c := c) (n := n) (x := k) (xs := [k', t0]) (k := .cLow) ho es ts rfl rfl
  have carrier := run_substep (c := c) (n := n) (x := k') (xs := [t0]) (k := .cCarrier) ho
    (es ++ [Event.level .inactive]) ts rfl rfl
  have clock := run_substep (c := c) (n := n) (x := t0) (xs := []) (k := .cT0) ho
    (es ++ [Event.level .inactive] ++ [Event.carrier c.carrierPeriodTicks]) ts rfl rfl
  rw [startEvents, append_triple]
  exact runUnder_trans (runUnder_trans low carrier) clock

/-- One iteration: the return of its sleep counts it, and goes on to `k`. -/
theorem run_iteration (x : Word32) {k : CalStep} (hk : k = if (n + 1).toNat < c.calIter then .cAct else .cT1) :
    runUnder c 4 (calAt s .cAct n es (calls [x, x] ++ ts)) = .next (calAt s k (n + 1) (es ++ iterEvents c) ts) := by
  have act := run_substep (c := c) (n := n) (x := x) (xs := [x]) (k := .cAct) ho es ts rfl rfl
  have slp := run_substep (c := c) (n := n) (x := x) (xs := []) (k := .cSlp) ho (es ++ [Event.level .active]) ts rfl rfl
  rw [hk, iterEvents, append_pair]
  exact runUnder_trans act slp

/-- The last `j + 1` iterations of the loop, down to `C_T1`. -/
theorem run_iterations (x : Word32) (j : Nat) (hn : n.toNat + (j + 1) = c.calIter) (hc : c.calIter < 16) :
    runUnder c (4 * (j + 1)) (calAt s .cAct n es (calls (List.replicate (2 * (j + 1)) x) ++ ts)) =
      .next (calAt s .cT1 (BitVec.ofNat 4 c.calIter) (es ++ (List.replicate (j + 1) (iterEvents c)).flatten) ts) := by
  have count : (n + 1).toNat = n.toNat + 1 := by bv_omega
  induction j generalizing n es with
  | zero =>
    have last := run_iteration (c := c) (n := n) ho es ts x (if_neg (by omega)).symm
    have all : n + 1 = BitVec.ofNat 4 c.calIter := by rw [← hn]; exact BitVec.eq_of_toNat_eq (by simp)
    rw [all] at last
    simpa using last
  | succ j ih =>
    have first := run_iteration (c := c) (n := n) ho es (calls (List.replicate (2 * (j + 1)) x) ++ ts) x
      (if_pos (by omega)).symm
    have others := ih (n := n + 1) (es ++ iterEvents c) (by omega) (by bv_omega)
    have run := runUnder_trans first others
    rw [List.append_assoc] at run
    have script : calls (List.replicate (2 + 2 * (j + 1)) x) ++ ts =
        calls [x, x] ++ (calls (List.replicate (2 * (j + 1)) x) ++ ts) := by
      rw [List.replicate_add, calls_append, List.append_assoc]; rfl
    rw [Nat.mul_succ 4, Nat.mul_succ 2, Nat.add_comm _ 4, Nat.add_comm _ 2, script]
    exact run

/-- `C_T1`, and `C_INACT` where `CAL_END_INACTIVE` says so. -/
theorem run_calEnd (k t0 t1 : Word32) (h0 : s.t0 = .written t0) :
    runUnder c (if c.calEndInactive then 4 else 2) (calAt s .cT1 n es (calls (endDraws c k t1) ++ ts)) =
      .next (calAt (writeT1 c t0 t1 s) .cT2 n (es ++ endEvents c t1) ts) := by
  have clock (xs : List Word32) : runUnder c 2 (calAt s .cT1 n es (calls (t1 :: xs) ++ ts)) =
      .next (calAt (writeT1 c t0 t1 s) (if c.calEndInactive then .cInact else .cT2) n (es ++ [Event.now t1]) (calls xs ++ ts)) :=
    run_substep ho es ts rfl (afterCal_t1 (s := calAt s .cT1 n (es ++ [Event.now t1]) (calls xs ++ ts)) h0)
  cases hc : c.calEndInactive with
  | false =>
    simp only [endDraws, endEvents, hc, Bool.false_eq_true, if_false] at clock ⊢
    exact clock []
  | true =>
    have inact := run_substep (c := c) (s := writeT1 c t0 t1 s) (n := n) (x := k) (xs := []) (k := .cInact) ho
      (es ++ [Event.now t1]) ts rfl rfl
    simp only [endDraws, endEvents, hc, if_true] at clock ⊢
    rw [append_pair]
    exact runUnder_trans (clock [k]) inact

/-- `C_T2`, the silent `C_DUMMY`, `C_T3` and `C_SETTLE`, whose return completes `TX_INIT`. -/
theorem run_settle (k t2 t3 : Word32) : runUnder c 7 (calAt s .cT2 n es (settleTurns k t2 t3 ++ ts)) =
    .next (complete (calAt (writeT3 c t2 t3 (writeT2 t2 s)) .cSettle n (es ++ settleEvents c t2 t3) ts)) := by
  have clock := run_substep (c := c) (n := n) (x := t2) (xs := []) (k := .cT2) ho es (.txStep k :: (calls [t3, k] ++ ts))
    rfl rfl
  have dummy : stepUnder c (calAt (writeT2 t2 s) .cDummy n (es ++ [Event.now t2]) (.txStep k :: (calls [t3, k] ++ ts))) =
      .next (calAt (writeT2 t2 s) .cT3 n (es ++ [Event.now t2]) (calls [t3, k] ++ ts)) :=
    stepUnder_dummy rfl ho rfl (nextCall_calibrating (k := .cDummy) rfl rfl rfl)
  have clock' := run_substep (c := c) (s := writeT2 t2 s) (n := n) (x := t3) (xs := [k]) (k := .cT3) ho
    (es ++ [Event.now t2]) ts rfl rfl
  have settle := run_substep (c := c) (s := writeT3 c t2 t3 (writeT2 t2 s)) (n := n) (x := k) (xs := []) (k := .cSettle) ho
    (es ++ [Event.now t2] ++ [Event.now t3]) ts rfl rfl
  rw [settleEvents, append_triple]
  exact runUnder_trans clock (runUnder_trans (runUnder_one dummy) (runUnder_trans clock' settle))

end

/-! ### The whole run -/

/-- `TX_INIT` is accepted and the sequencer stands at `C_LOW`, with no event yet (R75). -/
theorem stepUnder_init {c : Config} {s : State} {ts : List Turn} (hs : s.st = .uninit)
    (hscript : s.script = .port 0x80000000 :: ts) : stepUnder c s = .next (calAt (accept s) .cLow 0 [] ts) := by
  have accepted : execTxInit (setScript ts s) = .next (startCalibration (accept (setScript ts s))) := by
    simp [execTxInit, hs]
  rw [stepUnder_port hscript, portTurn, decodeRequest_txInit (by decide), calAt, emitted_nil]
  exact accepted

/-- The script of an uninterrupted `TX_INIT`, sub-step by sub-step. -/
theorem initScript_eq (c : Config) (n : Nat) (k t0 t1 t2 t3 : Word32) (rest : List Turn) :
    calls ([k, k, t0] ++ List.replicate n k ++ [t1] ++ (if c.calEndInactive then [k] else []) ++ [t2]) ++ [Turn.txStep k] ++
        calls [t3, k] ++ rest =
      calls [k, k, t0] ++ (calls (List.replicate n k) ++ (calls (endDraws c k t1) ++ (settleTurns k t2 t3 ++ rest))) := by
  have draws : endDraws c k t1 = [t1] ++ if c.calEndInactive then [k] else [] := rfl
  rw [draws, settleTurns]
  simp only [calls_append, List.append_assoc]

/-- The registers that a completed `TX_INIT` has written beside the position; one more request is accepted. -/
def calibratedBy (c : Config) (t0 t1 t2 t3 : Word32) (s : State) : State :=
  writeT3 c t2 t3 (writeT2 t2 (writeT1 c t0 t1 (writeT0 t0 (accept s))))

/-- An uninterrupted `TX_INIT` emits the events of R78 and completes, whatever the parameters, where `cal_i` can count the
loop. -/
theorem run_init {c : Config} {s : State} {rest : List Turn} {k t0 t1 t2 t3 : Word32} (hc : 0 < c.calIter ∧ c.calIter < 16)
    (hs : s.st = .uninit) (ho : s.outstanding = none)
    (hscript : s.script = .port 0x80000000 :: (calls ([k, k, t0] ++ List.replicate (2 * c.calIter) k ++ [t1] ++
      (if c.calEndInactive then [k] else []) ++ [t2]) ++ [Turn.txStep k] ++ calls [t3, k] ++ rest)) :
    runUnder c (1 + (6 + (4 * c.calIter + ((if c.calEndInactive then 4 else 2) + 7)))) s =
      .next (complete (calAt (calibratedBy c t0 t1 t2 t3 s) .cSettle (BitVec.ofNat 4 c.calIter)
        (initEvents c t0 t1 t2 t3) rest)) := by
  obtain ⟨j, hj⟩ : ∃ j, c.calIter = j + 1 := ⟨c.calIter - 1, by omega⟩
  rw [initScript_eq] at hscript
  have start := runUnder_one (stepUnder_init (c := c) hs hscript)
  have first := run_calStart (c := c) (s := accept s) (n := 0) ho []
    (calls (List.replicate (2 * c.calIter) k) ++ (calls (endDraws c k t1) ++ (settleTurns k t2 t3 ++ rest))) k k t0
  have loop := run_iterations (c := c) (s := writeT0 t0 (accept s)) (n := 0) ho (startEvents c t0)
    (calls (endDraws c k t1) ++ (settleTurns k t2 t3 ++ rest)) k j (by simp [hj]) hc.2
  rw [← hj] at loop
  have wawe := run_calEnd (c := c) (s := writeT0 t0 (accept s)) (n := BitVec.ofNat 4 c.calIter) ho
    (startEvents c t0 ++ (List.replicate c.calIter (iterEvents c)).flatten) (settleTurns k t2 t3 ++ rest) k t0 t1 rfl
  have settle := run_settle (c := c) (s := writeT1 c t0 t1 (writeT0 t0 (accept s))) (n := BitVec.ofNat 4 c.calIter) ho
    (startEvents c t0 ++ (List.replicate c.calIter (iterEvents c)).flatten ++ endEvents c t1) rest k t2 t3
  rw [initEvents_eq]
  exact runUnder_trans start (runUnder_trans first (runUnder_trans loop (runUnder_trans wawe settle)))

/-- Settles O53: the run of `run_init`, at 8 iterations. -/
theorem completedTxInit : Obligations.CompletedTxInit := by
  intro b s rest k t0 t1 t2 t3 hs ho hscript
  have run := run_init (c := { calEndInactive := b }) (t1 := t1) (show 0 < 8 ∧ 8 < 16 by decide) hs ho hscript
  refine ⟨by cases b <;> rfl, complete (calAt (calibratedBy { calEndInactive := b } t0 t1 t2 t3 s) .cSettle 8
    (initEvents { calEndInactive := b } t0 t1 t2 t3) rest), ?_, ?_, rfl, rfl, rfl, ho, rfl, rfl, rfl, rfl, rfl, ?_, rfl⟩
  · cases b <;> exact run
  · rintro rfl; exact run
  · cases b <;> rfl

end Sys2Proof.Machine
end

section
/-! Proofs of the Transmitter family (spec/41_transmitter.md), part 5: the run of an uninterrupted `TX_SEND` (R95, R99) and
the shape of its events (R98). -/

namespace Sys2Proof.Machine

/-! ### The calls of a symbol and of a repetition -/

/-- `s` at a position of a transmission, after the events `es`, with the script `ts`. -/
def sendAt (s : State) (p : Phase) (r : BitVec 3) (y : BitVec 5) (es : List Event) (ts : List Turn) : State :=
  { emitted es ts s with phase := p, rep := .written r, sym := .written y }

theorem emitted_sendAt (s : State) (p : Phase) (r : BitVec 3) (y : BitVec 5) (es es' : List Event) (ts ts' : List Turn) :
    emitted es' ts' (sendAt s p r y es ts) = sendAt s p r y (es ++ es') ts' := by
  simp [sendAt, emitted, levelAfter_append]

theorem complete_sendAt_outLevel (s : State) (p : Phase) (r : BitVec 3) (y : BitVec 5) (es : List Event) (ts : List Turn) :
    (complete (sendAt s p r y es ts)).outLevel = levelAfter es s.outLevel := rfl

/-- What stays as it is while the frame `f` is sent with the profile `w`, `m` (R26, R93, R94). -/
structure Sending (s : State) (f : Frame) (w : BitVec 29) (m : BitVec 28) : Prop where
  st : s.st = .transmitting
  noCall : s.outstanding = none
  frame : s.f = .written f
  channel : s.ch = .written (logicalChannel f)
  wawe : s.wawe = .written w
  mpe : s.mpe = .written m

/-- The events of symbol `k` (R89, R96). -/
def symbolEvents (f : Frame) (w : BitVec 29) (m : BitVec 28) (k : Nat) : List Event :=
  pulseEvents (markSleep 158 w) (pauseSleep (nominalPause Config.std f k) w m)

theorem pulsesEvents_eq (f : Frame) (w : BitVec 29) (m : BitVec 28) (n : Nat) :
    pulsesEvents Config.std f w m n = (List.range n).flatMap (symbolEvents f w m) := rfl

theorem pulsesEvents_succ (f : Frame) (w : BitVec 29) (m : BitVec 28) (n : Nat) :
    pulsesEvents Config.std f w m (n + 1) = pulsesEvents Config.std f w m n ++ symbolEvents f w m n := by
  rw [pulsesEvents_eq, List.range_succ, List.flatMap_append, List.flatMap_singleton, pulsesEvents_eq]

theorem sendEvents_succ (f : Frame) (w : BitVec 29) (m : BitVec 28) (n : Nat) :
    sendEvents Config.std f w m (n + 1) = sendEvents Config.std f w m n ++ repEvents Config.std f w m n := by
  rw [sendEvents, List.range_succ, List.flatMap_append, List.flatMap_singleton, sendEvents]

theorem exists_append_of_length {α : Type} {xs : List α} {a b : Nat} (h : xs.length = a + b) :
    ∃ ys zs, xs = ys ++ zs ∧ ys.length = a ∧ zs.length = b :=
  ⟨xs.take a, xs.drop a, (List.take_append_drop a xs).symm, by simp [h], by simp [h]⟩

section
variable {s : State} {f : Frame} {w : BitVec 29} {m : BitVec 28} (hx : Sending s f w m)
include hx

theorem Sending.sendAt (p : Phase) (r : BitVec 3) (y : BitVec 5) (es : List Event) (ts : List Turn) :
    Sending (sendAt s p r y es ts) f w m :=
  ⟨hx.st, hx.noCall, hx.frame, hx.channel, hx.wawe, hx.mpe⟩

section
variable (e : Event) (r : BitVec 3) (y : BitVec 5) (es : List Event) (ts : List Turn)

/-- After a symbol before STOP comes the next one. -/
theorem afterReturn_symbol (h : y < 17) :
    afterReturn Config.std e (sendAt s .spaceWait r y es ts) = .ok (sendAt s .markOn r (y + 1) es ts) :=
  (afterReturn_spaceWait (hx.sendAt ..).st rfl rfl).trans (if_pos h)

/-- After STOP comes the gap. -/
theorem afterReturn_stop : afterReturn Config.std e (sendAt s .spaceWait r 17 es ts) = .ok (sendAt s .gap r 17 es ts) :=
  (afterReturn_spaceWait (y := 17) (hx.sendAt ..).st rfl rfl).trans (if_neg (by decide))

/-- After a gap before the last comes the next repetition. -/
theorem afterReturn_repetition (h : (r + 1).toNat < 5) :
    afterReturn Config.std e (sendAt s .gap r y es ts) = .ok (sendAt s .markOn (r + 1) 0 es ts) :=
  (afterReturn_gap (hx.sendAt ..).st rfl rfl).trans (if_pos h)

/-- The last gap completes the transmission; `rep` is 5 then (R99; log 12). -/
theorem afterReturn_lastGap :
    afterReturn Config.std e (sendAt s .gap 4 y es ts) = .ok (complete (sendAt s .gap 5 y es ts)) :=
  (afterReturn_gap (r := 4) (hx.sendAt ..).st rfl rfl).trans (if_neg (by decide))

end

/-- The call of a phase is made and returns: two steps. -/
theorem run_phase {t : State} {p : Phase} {r : BitVec 3} {y : BitVec 5} {es : List Event} {ts : List Turn} {x : Word32}
    {xs : List Word32} {e : Event}
    (call : nextCall Config.std x (sendAt s p r y es (calls (x :: xs) ++ ts)) = .ok (some e))
    (h : afterReturn Config.std e (sendAt s p r y (es ++ [e]) (calls xs ++ ts)) = .ok t) :
    runUnder Config.std 2 (sendAt s p r y es (calls (x :: xs) ++ ts)) = .next t := by
  refine call_and_return rfl hx.noCall ?_ call ((congrArg (afterReturn Config.std e) ?_).trans h)
  · exact congrArg St.busy hx.st
  · exact emitted_sendAt s p r y es [e] _ _

section
variable (r : BitVec 3) (y : BitVec 5) (es : List Event) (ts : List Turn) (x : Word32) (xs : List Word32)

theorem run_markOn : runUnder Config.std 2 (sendAt s .markOn r y es (calls (x :: xs) ++ ts)) =
    .next (sendAt s .markWait r y (es ++ [Event.level .active]) (calls xs ++ ts)) :=
  run_phase hx (nextCall_markOn (hx.sendAt ..).st rfl) (afterReturn_markOn (hx.sendAt ..).st rfl)

theorem run_markWait : runUnder Config.std 2 (sendAt s .markWait r y es (calls (x :: xs) ++ ts)) =
    .next (sendAt s .spaceOn r y (es ++ [Event.sleep (markSleep 158 w)]) (calls xs ++ ts)) :=
  run_phase hx (nextCall_markWait (hx.sendAt ..).st rfl (hx.sendAt ..).wawe) (afterReturn_markWait (hx.sendAt ..).st rfl)

theorem run_spaceOn : runUnder Config.std 2 (sendAt s .spaceOn r y es (calls (x :: xs) ++ ts)) =
    .next (sendAt s .spaceWait r y (es ++ [Event.level .inactive]) (calls xs ++ ts)) :=
  run_phase hx (nextCall_spaceOn (hx.sendAt ..).st rfl) (afterReturn_spaceOn (hx.sendAt ..).st rfl)

theorem nextCall_pause (hy : y.toNat ≤ 17) : nextCall Config.std x (sendAt s .spaceWait r y es ts) =
    .ok (some (.sleep (pauseSleep (nominalPause Config.std f y.toNat) w m))) :=
  have hx' := hx.sendAt .spaceWait r y es ts
  nextCall_spaceWait hx'.st rfl hx'.frame hx'.wawe hx'.mpe rfl hy

end

/-- The four calls of a symbol (R89); the last return leads to `t`. -/
theorem run_symbol {t : State} (r : BitVec 3) {y : BitVec 5} (hy : y.toNat ≤ 17) (es : List Event) (ts : List Turn)
    {ks : List Word32} (hks : ks.length = 4)
    (h : ∀ e, afterReturn Config.std e (sendAt s .spaceWait r y (es ++ symbolEvents f w m y.toNat) ts) = .ok t) :
    runUnder Config.std 8 (sendAt s .markOn r y es (calls ks ++ ts)) = .next t := by
  obtain ⟨a, b, c, d, rfl⟩ := List.length_eq_four.1 hks
  have events : es ++ symbolEvents f w m y.toNat = es ++ [Event.level .active] ++ [.sleep (markSleep 158 w)] ++
      [.level .inactive] ++ [.sleep (pauseSleep (nominalPause Config.std f y.toNat) w m)] := by
    simp [symbolEvents, pulseEvents]
  rw [events] at h
  have mark := runUnder_trans (run_markOn hx r y es ts a [b, c, d]) (run_markWait hx ..)
  have space := runUnder_trans mark (run_spaceOn hx ..)
  exact runUnder_trans space (run_phase hx (nextCall_pause hx _ _ _ _ _ hy) (h _))

/-- The first `n` symbols of a repetition, all but STOP. -/
theorem run_symbols (r : BitVec 3) (es : List Event) (n : Nat) (hn : n ≤ 17) (ts : List Turn) {ks : List Word32}
    (hks : ks.length = 4 * n) :
    runUnder Config.std (8 * n) (sendAt s .markOn r 0 es (calls ks ++ ts)) =
      .next (sendAt s .markOn r (BitVec.ofNat 5 n) (es ++ pulsesEvents Config.std f w m n) ts) := by
  induction n generalizing ts ks with
  | zero =>
    obtain rfl : ks = [] := List.length_eq_zero_iff.1 hks
    rw [pulsesEvents_eq, List.range_zero, List.flatMap_nil, List.append_nil]
    rfl
  | succ n ih =>
    obtain ⟨ks₁, ks₂, rfl, h₁, h₂⟩ := exists_append_of_length (hks.trans (Nat.mul_succ 4 n))
    have number : (BitVec.ofNat 5 n).toNat = n := by rw [BitVec.toNat_ofNat]; omega
    have more : BitVec.ofNat 5 n < 17 := by rw [BitVec.lt_def, number]; exact hn
    have symbols := ih (by omega) (calls ks₂ ++ ts) h₁
    have last := run_symbol hx r (y := BitVec.ofNat 5 n) (by omega) (es ++ pulsesEvents Config.std f w m n) ts h₂
      fun e => afterReturn_symbol hx e r _ _ ts more
    rw [calls_append, List.append_assoc (calls ks₁), pulsesEvents_succ, ← List.append_assoc es, BitVec.ofNat_add]
    rw [number] at last
    exact runUnder_trans symbols last

/-- A repetition: the 18 symbols and the gap (R95); the gap's return leads to `t`. -/
theorem run_repetition {t : State} (r : BitVec 3) (es : List Event) (ts : List Turn) {ks : List Word32}
    (hks : ks.length = 73)
    (h : ∀ e, afterReturn Config.std e (sendAt s .gap r 17 (es ++ repEvents Config.std f w m r.toNat) ts) = .ok t) :
    runUnder Config.std 146 (sendAt s .markOn r 0 es (calls ks ++ ts)) = .next t := by
  obtain ⟨ks₁, ks', rfl, h₁, hks⟩ := exists_append_of_length (a := 4 * 17) (b := 4 + 1) hks
  obtain ⟨ks₂, ks₃, rfl, h₂, h₃⟩ := exists_append_of_length hks
  obtain ⟨x, rfl⟩ := List.length_eq_one_iff.1 h₃
  have symbols := run_symbols hx r es 17 (by decide) (calls ks₂ ++ (calls [x] ++ ts)) h₁
  have stop := run_symbol hx r (y := 17) (by decide) (es ++ pulsesEvents Config.std f w m 17) (calls [x] ++ ts) h₂
    fun e => afterReturn_stop hx e r _ _
  have events : es ++ repEvents Config.std f w m r.toNat =
      es ++ pulsesEvents Config.std f w m 17 ++ symbolEvents f w m 17 ++ [.sleep (gap Config.std r (logicalChannel f))] := by
    rw [repEvents, pulsesEvents_succ, gap_eq_nominal, logicalChannel_toNat_eq]
    simp only [List.append_assoc]
  rw [events] at h
  have last := run_phase hx (x := x) (xs := []) (nextCall_gap (hx.sendAt ..).st rfl rfl (hx.sendAt ..).channel) (h _)
  rw [calls_append, calls_append, List.append_assoc, List.append_assoc]
  exact runUnder_trans symbols (runUnder_trans stop last)

/-- The first `n` repetitions, all but the last. -/
theorem run_repetitions (n : Nat) (hn : n ≤ 4) (ts : List Turn) {ks : List Word32} (hks : ks.length = 73 * n) :
    runUnder Config.std (146 * n) (sendAt s .markOn 0 0 [] (calls ks ++ ts)) =
      .next (sendAt s .markOn (BitVec.ofNat 3 n) 0 (sendEvents Config.std f w m n) ts) := by
  induction n generalizing ts ks with
  | zero =>
    obtain rfl : ks = [] := List.length_eq_zero_iff.1 hks
    rfl
  | succ n ih =>
    obtain ⟨ks₁, ks₂, rfl, h₁, h₂⟩ := exists_append_of_length (hks.trans (Nat.mul_succ 73 n))
    have number : (BitVec.ofNat 3 n).toNat = n := by rw [BitVec.toNat_ofNat]; omega
    have more : (BitVec.ofNat 3 n + 1).toNat < 5 := by bv_omega
    have repetitions := ih (by omega) (calls ks₂ ++ ts) h₁
    have last := run_repetition hx (BitVec.ofNat 3 n) (sendEvents Config.std f w m n) ts h₂
      fun e => afterReturn_repetition hx e _ 17 _ ts more
    rw [number] at last
    rw [calls_append, List.append_assoc, sendEvents_succ, BitVec.ofNat_add]
    exact runUnder_trans repetitions last

/-- All five repetitions, and the completion (R99; `rep` is 5 then, log 12). -/
theorem run_transmission (ts : List Turn) {ks : List Word32} (hks : ks.length = 365) :
    runUnder Config.std 730 (sendAt s .markOn 0 0 [] (calls ks ++ ts)) =
      .next (complete (sendAt s .gap 5 17 (sendEvents Config.std f w m 5) ts)) := by
  obtain ⟨ks₁, ks₂, rfl, h₁, h₂⟩ := exists_append_of_length (a := 73 * 4) (b := 73) hks
  have repetitions := run_repetitions hx 4 (by decide) (calls ks₂ ++ ts) h₁
  have last := run_repetition hx 4 (sendEvents Config.std f w m 4) ts h₂
    fun e => afterReturn_lastGap hx e 17 _ ts
  rw [calls_append, List.append_assoc, sendEvents_succ f w m 4]
  exact runUnder_trans repetitions last

end

/-! ### The whole run -/

/-- `TX_SEND` is accepted and the sequencer stands at the first mark, with no event yet (R92 to R95). -/
theorem stepUnder_send {s : State} {f : Frame} {ts : List Turn} (hs : s.st = .calibrated)
    (hscript : s.script = .port (sendWord f) :: ts) :
    stepUnder Config.std s = .next (sendAt (startSend f (accept s)) .markOn 0 0 [] ts) := by
  rw [stepUnder_port hscript, portTurn, decodeRequest_sendWord, sendAt, emitted_nil]
  exact sendFrame_calibrated f (s := setScript ts s) hs

section
variable {s : State} {rest : List Turn} {clocks : List Word32} {f : Frame} {w : BitVec 29} {m : BitVec 28}

/-- An uninterrupted `TX_SEND` emits the events of R95 and completes. -/
theorem run_send (hs : s.st = .calibrated) (ho : s.outstanding = none) (hw : s.wawe = .written w) (hm : s.mpe = .written m)
    (hclocks : clocks.length = 365) (hscript : s.script = .port (sendWord f) :: (calls clocks ++ rest)) :
    Sys2Proof.core.run 731 s =
      .next (complete (sendAt (startSend f (accept s)) .gap 5 17 (sendEvents Config.std f w m 5) rest)) := by
  have sending : Sending (startSend f (accept s)) f w m := ⟨rfl, ho, rfl, rfl, hw, hm⟩
  exact runUnder_trans (runUnder_one (stepUnder_send hs hscript)) (run_transmission sending rest hclocks)

end

/-! ### The events by number -/

/-- Blocks that count alike. -/
theorem countP_flatMap_of_const {α β : Type} {p : β → Bool} {g : α → List β} {k : Nat} (h : ∀ x, (g x).countP p = k)
    (xs : List α) : (xs.flatMap g).countP p = xs.length * k := by
  have counts : List.countP p ∘ g = fun _ => k := funext h
  rw [List.countP_flatMap, counts, List.map_const', List.sum_replicate, smul_eq_mul]

theorem length_flatMap_of_const {α β : Type} {g : α → List β} {k : Nat} (h : ∀ x, (g x).length = k) (xs : List α) :
    (xs.flatMap g).length = xs.length * k := by
  rw [← List.countP_true, countP_flatMap_of_const fun x => (congrFun List.countP_true _).trans (h x)]

/-- Entry `i` of block `x`, where every block has `k` entries. -/
theorem getElem?_flatMap_range {α : Type} {g : Nat → List α} {k : Nat} (h : ∀ x, (g x).length = k) {n x i : Nat}
    (hx : x < n) (hi : i < k) : ((List.range n).flatMap g)[k * x + i]? = (g x)[i]? := by
  induction n with
  | zero => omega
  | succ n ih =>
    have length : ((List.range n).flatMap g).length = k * n := by
      rw [length_flatMap_of_const h, List.length_range, Nat.mul_comm]
    rw [List.range_succ, List.flatMap_append, List.flatMap_singleton]
    rcases Nat.lt_succ_iff_lt_or_eq.1 hx with earlier | rfl
    · have bound : k * x + i < k * n := calc
        k * x + i < k * x + k := Nat.add_lt_add_left hi _
        _ ≤ k * n := Nat.mul_le_mul_left k earlier
      rw [List.getElem?_append_left (length ▸ bound), ih earlier]
    · rw [List.getElem?_append_right (by omega), length, Nat.add_sub_cancel_left]

section
variable (f : Frame) (w : BitVec 29) (m : BitVec 28)

theorem length_pulsesEvents : (pulsesEvents Config.std f w m 18).length = 72 := by
  rw [pulsesEvents_eq, length_flatMap_of_const (k := 4) fun _ => rfl, List.length_range]

theorem length_repEvents (r : Nat) : (repEvents Config.std f w m r).length = 73 := by
  rw [repEvents, List.length_append, length_pulsesEvents]
  rfl

theorem length_sendEvents : (sendEvents Config.std f w m 5).length = 365 := by
  rw [sendEvents, length_flatMap_of_const (length_repEvents f w m), List.length_range]

/-- Events `73 r` to `73 r + 72` are those of repetition `r`. -/
theorem sendEvents_get {r i : Nat} (hr : r < 5) (hi : i < 73) :
    (sendEvents Config.std f w m 5)[73 * r + i]? = (repEvents Config.std f w m r)[i]? :=
  getElem?_flatMap_range (length_repEvents f w m) hr hi

/-- Event `4 y + j` of a repetition is call `j` of symbol `y`. -/
theorem sendEvents_get_symbol {r y j : Nat} (hr : r < 5) (hy : y < 18) (hj : j < 4) :
    (sendEvents Config.std f w m 5)[73 * r + 4 * y + j]? = (symbolEvents f w m y)[j]? := by
  rw [Nat.add_assoc, sendEvents_get f w m hr (by omega), repEvents,
    List.getElem?_append_left (by rw [length_pulsesEvents]; omega)]
  exact getElem?_flatMap_range (g := symbolEvents f w m) (fun _ => rfl) hy hj

/-- Event 72 of a repetition is its gap. -/
theorem sendEvents_get_gap {r : Nat} (hr : r < 5) : (sendEvents Config.std f w m 5)[73 * r + 72]? =
    some (.sleep (BitVec.ofNat 32 (nominalGap Config.std r (1 + (f.extractLsb' 12 2).toNat)))) := by
  rw [sendEvents_get f w m hr (by omega), repEvents, List.getElem?_append_right (by rw [length_pulsesEvents]),
    length_pulsesEvents]
  rfl

/-- How often a kind of event occurs: `k` times in a symbol, and `g` times in a gap. -/
theorem countP_sendEvents {p : Event → Bool} {k g : Nat} (symbol : ∀ y, (symbolEvents f w m y).countP p = k)
    (gap : ∀ d, List.countP p [.sleep d] = g) : (sendEvents Config.std f w m 5).countP p = 5 * (18 * k + g) := by
  have repetition (r : Nat) : (repEvents Config.std f w m r).countP p = 18 * k + g := by
    rw [repEvents, List.countP_append, gap, pulsesEvents_eq, countP_flatMap_of_const symbol, List.length_range]
  rw [sendEvents, countP_flatMap_of_const repetition, List.length_range]

/-- A transmission reads no clock and configures no carrier (R116). -/
theorem mem_sendEvents {e : Event} (h : e ∈ sendEvents Config.std f w m 5) : (∃ l, e = .level l) ∨ ∃ d, e = .sleep d := by
  obtain ⟨r, -, h⟩ := List.mem_flatMap.1 h
  rcases List.mem_append.1 h with h | h
  · obtain ⟨y, -, h⟩ := List.mem_flatMap.1 h
    simp only [pulseEvents, List.mem_cons, List.not_mem_nil, or_false] at h
    rcases h with rfl | rfl | rfl | rfl
    · exact .inl ⟨_, rfl⟩
    · exact .inr ⟨_, rfl⟩
    · exact .inl ⟨_, rfl⟩
    · exact .inr ⟨_, rfl⟩
  · exact .inr ⟨_, List.mem_singleton.1 h⟩

/-- A repetition leaves the output inactive: its last level is that of STOP (R89). -/
theorem levelAfter_repEvents (r : Nat) (l : OutLevel) :
    levelAfter (repEvents Config.std f w m r) l = .known .inactive := by
  rw [repEvents, levelAfter_append, pulsesEvents_succ, levelAfter_append]
  rfl

theorem levelAfter_sendEvents (l : OutLevel) : levelAfter (sendEvents Config.std f w m 5) l = .known .inactive := by
  rw [sendEvents_succ, levelAfter_append, levelAfter_repEvents]

end

/-- Settles O54: the run of `run_send`. -/
theorem completedTxSend : Obligations.CompletedTxSend := by
  intro s rest clocks f w m hs ho hw hm hclocks hscript
  refine ⟨length_sendEvents f w m, _, run_send hs ho hw hm hclocks hscript, rfl, rfl, rfl, ho, rfl, rfl, rfl, hw, hm, rfl,
    (complete_sendAt_outLevel ..).trans (levelAfter_sendEvents f w m _), fun answered abandoned noFault noPort => ?_⟩
  exact
    { noRequest := noPort
      answered := by simpa [complete, sendAt, startSend, emitted, respond, accept] using answered
      state := .inr rfl, phase := rfl, noCall := ho, noAbandoned := abandoned, noFaultCode := noFault }

theorem nominalPause_cast (f : Frame) (k : Nat) : (nominalPause Config.std f k : Int) =
    if k = 0 ∨ k = 17 then 1026 else if f.getLsbD (16 - k) then 553 else 263 := by
  unfold nominalPause
  split
  · rfl
  · split <;> rfl

/-- Settles O55: the events that `run_send` appends, found by number. -/
theorem shapeOfATransmission : Obligations.ShapeOfATransmission := by
  intro s rest clocks f w m hs ho hw hm hclocks hscript
  refine ⟨_, sendEvents Config.std f w m 5, run_send hs ho hw hm hclocks hscript, rfl, length_sendEvents f w m,
    countP_sendEvents f w m (k := 1) (g := 0) (fun _ => rfl) fun _ => rfl,
    countP_sendEvents f w m (k := 1) (g := 0) (fun _ => rfl) fun _ => rfl,
    countP_sendEvents f w m (k := 2) (g := 1) (fun _ => rfl) fun _ => rfl,
    fun k h => by simpa using mem_sendEvents f w m h, fun p h => by simpa using mem_sendEvents f w m h,
    fun r y hr hy => ?_, fun r hr => ?_⟩
  · have call {j : Nat} (hj : j < 4) := sendEvents_get_symbol f w m hr hy hj
    refine ⟨call (j := 0) (by decide), ⟨_, call (j := 1) (by decide), markSleep_toNat w (by decide)⟩,
      call (j := 2) (by decide), ⟨_, call (j := 3) (by decide), ?_⟩⟩
    rw [← nominalPause_cast]
    exact pauseSleep_toNat w m ((nominalPause_range f y).2.trans_lt (by decide))
  · refine ⟨_, sendEvents_get_gap f w m hr, ?_⟩
    rw [← logicalChannel_toNat_eq, logicalChannel_toNat, nominalGap_std, BitVec.toNat_ofNat]
    split <;> omega

end Sys2Proof.Machine
end

section
/-! Proofs of the exceptions family (spec/60_exceptions.md), part 1: the instruction that a request word runs (R112, R118),
the outcome of each request in each state (R107), and a request at the moment of a completion (R112). -/

namespace Sys2Proof.Machine

/-! ### The instruction of a request word -/

/-- The `TX_SEND` word of a frame as the formula of R64. -/
theorem sendWord_eq_or (f : Frame) : sendWord f = 0x90000000 ||| f.setWidth 32 := by
  obtain ⟨-, -, -, -, send⟩ := requestWordsAreTheFormulas
  exact CodeWord.request.inj (send f)

/-- Settles O16: the event is a request word (`step_port`), alone or as the carrier of a frame, and the request port runs what
it decodes to (`portTurn_requestWord`). -/
theorem stepRunsTheDecodedInstruction : Obligations.StepRunsTheDecodedInstruction := by
  refine fun s rest i => ⟨fun w hscript hi => ?_, fun fr hscript hi => ?_⟩
  · exact (step_port hscript).trans (portTurn_requestWord (cw := .request w) hi (setScript rest s))
  · rw [← sendWord_eq_or] at hscript
    exact (step_port hscript).trans (portTurn_requestWord (cw := .frame fr) hi (setScript rest s))

/-- Settles O21: a frame row and the `TX_SEND` of the row's layout are both `sendFrame` of the same bits (log 7). -/
theorem frameRowsFaultAsTheirTxSend : Obligations.FrameRowsFaultAsTheirTxSend :=
  fun _ _ _ _ _ _ _ _ => ⟨rfl, rfl, rfl⟩

/-! ### What the request port does with each kind of word -/

/-- In `FAULTED` nothing is taken, whatever the word (R107, R109). -/
theorem portTurn_of_faulted (w : Word32) {s : State} (hs : s.st = .faulted) : portTurn w s = .next s := by
  obtain ⟨t, ht⟩ := portTurn_isNext w s
  rcases portTurn_next ht with ⟨i, -, h⟩ | ⟨e, -, ⟨-, rfl⟩ | ⟨ne, -⟩⟩
  · cases exec_next h with
    | untaken _ => exact ht
    | answer frame ne => exact absurd hs ne
    | startCal hu => exact absurd (hs.symm.trans hu) (by decide)
    | send frame hc => exact absurd (hs.symm.trans hc) (by decide)
    | fault code w ne _ => exact absurd hs ne
  · exact ht
  · exact absurd hs ne

section
variable {w : Word32}

/-- An illegal word raises fault 1 (R57). -/
theorem portTurn_of_illegal {s : State} (illegal : IllegalWord w) (hs : s.st ≠ .faulted) :
    portTurn w s = .next (raiseFault .illegalRequest w s) := by
  obtain ⟨e, he⟩ := decodeRequest_error_iff.2 illegal
  simp [portTurn, he, illegalWord, hs]

/-- A legal word of the Encoder's operations is the answer of a frame (R45). -/
theorem portTurn_encoder (legal : ¬IllegalWord w) (op : (w >>> 28).toNat ≤ 3) (s : State) :
    ∃ frame, portTurn w s = answerFrame frame s := by
  obtain ⟨encSop, encCd, encCp, -, -⟩ := operandsDecodeFromTheirFields w legal
  have ops : (w >>> 28).toNat = 1 ∨ (w >>> 28).toNat = 2 ∨ (w >>> 28).toNat = 3 := by
    have known := op_of_legal legal
    omega
  rcases ops with op | op | op
  · exact ⟨_, portTurn_requestWord (cw := .request w) (encSop op) s⟩
  · obtain ⟨r, b, hd, -, -⟩ := encCd op
    exact ⟨_, portTurn_requestWord (cw := .request w) hd s⟩
  · exact ⟨_, portTurn_requestWord (cw := .request w) (encCp op) s⟩

/-- The only legal word of operation 8 is `TX_INIT` (R56). -/
theorem portTurn_txInit (legal : ¬IllegalWord w) (op : (w >>> 28).toNat = 8) (s : State) :
    w = initWord ∧ portTurn w s = execTxInit s := by
  obtain ⟨-, -, -, txInit, -⟩ := operandsDecodeFromTheirFields w legal
  rw [illegalWord_txInit op, not_not, rowTxInit_fits_iff] at legal
  exact ⟨legal, portTurn_requestWord (cw := .request w) (txInit op) s⟩

/-- A legal word of operation 9 is the `TX_SEND` of a frame (R56). -/
theorem portTurn_txSend (legal : ¬IllegalWord w) (op : (w >>> 28).toNat = 9) (s : State) :
    ∃ f, w = sendWord f ∧ portTurn w s = sendFrame f s := by
  obtain ⟨-, -, -, -, txSend⟩ := operandsDecodeFromTheirFields w legal
  rw [illegalWord_txSend op, not_not] at legal
  exact ⟨_, (sendWord_of_fits legal).symm, portTurn_requestWord (cw := .request w) (txSend op) s⟩

/-- A legal word is an Encoder request, a `TX_INIT` or a `TX_SEND` (R52). -/
theorem kind_of_legal (legal : ¬IllegalWord w) : (w >>> 28).toNat ≤ 3 ∨ (w >>> 28).toNat = 8 ∨ (w >>> 28).toNat = 9 := by
  have known := op_of_legal legal
  omega

end

/-! ### The outcome of each request in each state -/

section
variable {s : State}

/-- A second `TX_INIT` is a fault (R75, R107). -/
theorem execTxInit_of_not_uninit (hu : s.st ≠ .uninit) (hf : s.st ≠ .faulted) :
    execTxInit s = .next (raiseFault .initTwice initWord s) := by
  unfold execTxInit
  split
  · exact absurd ‹_› hu
  · rfl
  · rfl
  · rfl
  · exact absurd ‹_› hf

/-- A frame sent without a profile is a fault (R92, R107). -/
theorem sendFrame_not_calibrated (frame : Frame) (hs : s.st = .uninit ∨ s.st = .calibrating) :
    sendFrame frame s = .next (raiseFault .sendNotCalibrated (sendWord frame) s) := by
  rcases hs with hs | hs <;> simp [sendFrame, hs]

/-- A frame sent during a transmission is a fault (R102, R107). -/
theorem sendFrame_transmitting (frame : Frame) (hs : s.st = .transmitting) :
    sendFrame frame s = .next (raiseFault .sendBusy (sendWord frame) s) := by
  simp [sendFrame, hs]

end

/-- Settles O22: a word is taken as its kind says, and each kind has one equation per column of R107. -/
theorem requestOutcomePerState : Obligations.RequestOutcomePerState := by
  intro s w rest hscript
  obtain ⟨t, ht⟩ := portTurn_isNext w (setScript rest s)
  have outcome {t' : State} (h : portTurn w (setScript rest s) = .next t') : t = t' :=
    Host.Outcome.next.inj (ht.symm.trans h)
  refine ⟨t, (step_port hscript).trans ht, fun hs => ?_, fun hs illegal => ?_, fun hs legal op => ?_, fun legal op hs => ?_,
    fun legal op hu hf => ?_, fun legal op hs => ?_, fun legal op hs => ?_, fun legal op hs => ?_⟩
  · exact outcome (portTurn_of_faulted w hs)
  · obtain rfl := outcome (portTurn_of_illegal illegal hs)
    exact ⟨rfl, rfl, rfl⟩
  · obtain ⟨frame, taken⟩ := portTurn_encoder legal op (setScript rest s)
    obtain rfl := outcome (taken.trans (answerFrame_of_not_faulted frame hs))
    exact ⟨rfl, _, rfl⟩
  · obtain ⟨-, taken⟩ := portTurn_txInit legal op (setScript rest s)
    obtain rfl := outcome (taken.trans (txInitIsAcceptedInUninit _ hs))
    rfl
  · obtain ⟨rfl, taken⟩ := portTurn_txInit legal op (setScript rest s)
    obtain rfl := outcome (taken.trans (execTxInit_of_not_uninit hu hf))
    exact ⟨rfl, rfl, rfl⟩
  · obtain ⟨f, rfl, taken⟩ := portTurn_txSend legal op (setScript rest s)
    obtain rfl := outcome (taken.trans (sendFrame_not_calibrated f hs))
    exact ⟨rfl, rfl, rfl⟩
  · obtain ⟨f, rfl, taken⟩ := portTurn_txSend legal op (setScript rest s)
    obtain rfl := outcome (taken.trans (sendFrame_calibrated f hs))
    rfl
  · obtain ⟨f, rfl, taken⟩ := portTurn_txSend legal op (setScript rest s)
    obtain rfl := outcome (taken.trans (sendFrame_transmitting f hs))
    exact ⟨rfl, rfl, rfl⟩

/-! ### A request at the moment of a completion -/

/-- A frame's `TX_SEND` word on the request port is the frame's way to the Transmitter. -/
theorem portTurn_sendWord (f : Frame) (s : State) : portTurn (sendWord f) s = sendFrame f s :=
  portTurn_requestWord (cw := .request (sendWord f)) (decodeRequest_sendWord f) s

/-- The return of the gap after the last repetition completes the transmission (R99). -/
theorem afterReturn_gap_last {e : Event} {r : BitVec 3} {s : State} (hs : s.st = .transmitting) (hp : s.phase = .gap)
    (hr : s.rep = .written r) (last : r.toNat = 4) :
    afterReturn Config.std e s = .ok (complete { s with rep := .written (r + 1) }) := by
  obtain rfl : r = 4 := BitVec.eq_of_toNat_eq last
  exact (afterReturn_gap hs hp hr).trans (if_neg (by decide))

/-- Settles O31: the return of the last gap completes the first `TX_SEND` (R99), and the second is then taken in `CALIBRATED`;
taken first, it faults in `TRANSMITTING`, which leaves no call that the return could end (log 5). -/
theorem simultaneousEventsTakeEitherOrder : Obligations.SimultaneousEventsTakeEitherOrder := by
  refine fun s fr e r rest hs hp ho hr last => ⟨fun hscript => ?_, fun hscript => ?_⟩
  · have completes := step_return hscript ho (afterReturn_gap_last (s := endCall (setScript _ s)) hs hp hr last)
    exact ⟨_, runUnder_trans (runUnder_one completes) (runUnder_one (stepUnder_send rfl rfl)), rfl, rfl, rfl, rfl⟩
  · have faults : step s = .next (raiseFault .sendBusy (sendWord fr) (setScript (.hwReturn none :: rest) s)) :=
      (step_port hscript).trans ((portTurn_sendWord fr _).trans (sendFrame_transmitting fr hs))
    exact ⟨_, runUnder_trans (runUnder_one faults)
      (runUnder_one ((step_hwReturn rfl).trans (hwReturn_of_no_call Config.std none rfl))), rfl, rfl, rfl, rfl, rfl, rfl⟩

end Sys2Proof.Machine
end

section
/-! Proofs of the exceptions family (spec/60_exceptions.md), part 2: how a fault is taken (R108, R110, R111), that nothing is
taken in `FAULTED` (R109), and where the clock is read and the carrier configured (R116). -/

namespace Sys2Proof.Machine

/-! ### `HW_ERROR` -/

/-- `out_level` keeps its value after a failed call that is no `SetLevel` (log 8). -/
theorem blurLevel_outLevel {e : Event} (h : ∀ l, e ≠ .level l) (s : State) : (blurLevel e s).outLevel = s.outLevel := by
  cases e with
  | level l => exact absurd rfl (h l)
  | carrier p => rfl
  | sleep d => rfl
  | now k => rfl

/-- The state that `HW_ERROR` leaves: the fault registers, idle, and no register else but `out_level` (R108, R111). -/
theorem raiseFault_hwError (e : Event) (x : HwErr) (w : Word32) (s : State) :
    raiseFault .hwError w { blurLevel e (endCall s) with hwErr := .written x } =
      { s with
        st := .faulted
        phase := .idle
        faultCode := .hwError
        faultReq := .written w
        hwErr := .written x
        outstanding := none
        outLevel := (blurLevel e s).outLevel
        draws := (blurLevel e s).draws } := by
  cases e <;> simp [raiseFault, blurLevel, endCall]

/-- With an operation in flight there is a word to charge its fault to (R108). -/
theorem inFlightWord_isOk {s : State} (h : s.st = .calibrating ∨ (s.st = .transmitting ∧ s.f.isWritten = true)) :
    ∃ w, inFlightWord s = .ok w := by
  rcases h with hs | ⟨hs, hf⟩
  · exact ⟨initWord, by simp [inFlightWord, hs]⟩
  · obtain ⟨f, hf⟩ := isWritten_iff.1 hf
    exact ⟨sendWord f, by simp [inFlightWord, hs, hf]⟩

/-- A call that returns an error raises `HW_ERROR`, charged to the operation in flight (R111). -/
theorem hwReturn_of_error {c : Config} {e : Event} {x : HwErr} {w : Word32} {s : State} (ho : s.outstanding = some e)
    (hw : inFlightWord s = .ok w) :
    hwReturn c (some x) s = .next (raiseFault .hwError w { blurLevel e (endCall s) with hwErr := .written x }) := by
  simp [hwReturn, ho, takeHwError, hw]

/-- Settles O24: the return is `hwReturn_of_error`, and `raiseFault_hwError` is the state it leaves. -/
theorem hwErrorIsLatchedUnmodified : Obligations.HwErrorIsLatchedUnmodified := by
  intro s e x rest hscript ho inFlight
  obtain ⟨w, hw⟩ := inFlightWord_isOk (s := setScript rest s) inFlight
  have faults := (step_hwReturn hscript).trans (hwReturn_of_error (s := setScript rest s) ho hw)
  rw [raiseFault_hwError] at faults
  exact ⟨_, faults, rfl, rfl, rfl, rfl, rfl, rfl, rfl⟩

/-! ### The two ways into `FAULTED` -/

/-- The code of a fault of a request (R106, codes 1 to 4). -/
def IsRequestFault (code : FaultCode) : Prop :=
  code = .illegalRequest ∨ code = .sendNotCalibrated ∨ code = .sendBusy ∨ code = .initTwice

/-- A word on the request port that leads into `FAULTED` is the word the fault is charged to. -/
theorem portTurn_faulted {w : Word32} {s t : State} (h : portTurn w s = .next t) (hs : s.st ≠ .faulted)
    (ht : t.st = .faulted) : ∃ code, IsRequestFault code ∧ t = raiseFault code w s := by
  rcases Classical.em (IllegalWord w) with illegal | legal
  · rw [portTurn_of_illegal illegal hs] at h
    cases h
    exact ⟨_, .inl rfl, rfl⟩
  rcases kind_of_legal legal with op | op | op
  · obtain ⟨frame, taken⟩ := portTurn_encoder legal op s
    rcases answerFrame_next (taken ▸ h) with ⟨hf, -⟩ | ⟨-, rfl⟩
    · exact absurd hf hs
    · exact absurd ht hs
  · obtain ⟨rfl, taken⟩ := portTurn_txInit legal op s
    rcases execTxInit_next (taken ▸ h) with ⟨-, rfl⟩ | ⟨-, rfl⟩ | ⟨hf, -⟩
    · cases ht
    · exact ⟨_, .inr (.inr (.inr rfl)), rfl⟩
    · exact absurd hf hs
  · obtain ⟨f, rfl, taken⟩ := portTurn_txSend legal op s
    rcases sendFrame_next (taken ▸ h) with ⟨-, rfl⟩ | ⟨-, rfl⟩ | ⟨-, rfl⟩ | ⟨hf, -⟩
    · cases ht
    · exact ⟨_, .inr (.inl rfl), rfl⟩
    · exact ⟨_, .inr (.inr (.inl rfl)), rfl⟩
    · exact absurd hf hs

/-- A return that leads into `FAULTED` is that of the outstanding call, with an error. -/
theorem hwReturn_faulted {c : Config} {err : Option HwErr} {s t : State} (h : hwReturn c err s = .next t)
    (hs : s.st ≠ .faulted) (ht : t.st = .faulted) : ∃ e x, s.outstanding = some e ∧ takeHwError e x s = .ok t := by
  rcases hwReturn_next h with ⟨-, rfl⟩ | ⟨e, ho, ⟨-, h⟩ | ⟨x, -, h⟩⟩
  · exact absurd ht hs
  · rcases (afterReturn_returned h).outcome with ⟨same, -⟩ | ⟨done, -⟩
    · exact absurd (same.symm.trans ht) hs
    · exact absurd (done.symm.trans ht) (by decide)
  · exact ⟨e, x, ho, h⟩

theorem txStep_not_faulted {c : Config} {clock : Word32} {s t : State} (h : txStep c clock s = .next t)
    (hs : s.st ≠ .faulted) : t.st ≠ .faulted :=
  txStep_st h ▸ hs

/-- A step into `FAULTED` is the fault of a request, or the error of the outstanding call (R106). -/
theorem step_faulted {s t : State} (h : step s = .next t) (hs : s.st ≠ .faulted) (ht : t.st = .faulted) :
    (∃ w rest code, s.script = .port w :: rest ∧ IsRequestFault code ∧ t = raiseFault code w (setScript rest s)) ∨
    (∃ u e x, SameCore s u ∧ u.script = s.script.tail ∧ u.outstanding = some e ∧ takeHwError e x u = .ok t) := by
  rcases stepUnder_next h with ⟨turn, rest, hscript, h⟩ | ⟨hscript, ⟨err, h⟩ | ⟨clock, h⟩ | ⟨-, -, rfl⟩⟩
  · cases turn with
    | port w =>
      obtain ⟨code, hcode, rfl⟩ := portTurn_faulted h hs ht
      exact .inl ⟨w, rest, code, hscript, hcode, rfl⟩
    | reset => cases h; cases ht
    | txStep clock => exact absurd ht (txStep_not_faulted h hs)
    | hwReturn err =>
      obtain ⟨e, x, ho, h⟩ := hwReturn_faulted h hs ht
      exact .inr ⟨_, e, x, setScript_same rest s, by rw [hscript]; rfl, ho, h⟩
    | lateReturn => cases h; exact absurd ht hs
  · obtain ⟨e, x, ho, h⟩ := hwReturn_faulted h hs ht
    exact .inr ⟨_, e, x, nextDraw_same s, by rw [nextDraw_script, hscript]; rfl, ho, h⟩
  · exact absurd ht (txStep_not_faulted h hs)
  · exact absurd ht hs

/-- Settles O23: each of the two ways into `FAULTED` is one `raiseFault` in a state with the registers of `s`. -/
theorem faultEntryIsPrecise : Obligations.FaultEntryIsPrecise := by
  intro s t hs h ht
  rcases step_faulted h hs ht with ⟨w, rest, code, hscript, hcode, rfl⟩ | ⟨u, e, x, same, hscript, ho, h⟩
  · exact ⟨rfl, rfl, rfl, rfl, rfl, rfl, rfl, rfl, rfl, rfl, rfl, rfl, rfl, rfl, rfl, rfl, rfl,
      .inl ⟨w, rest, hscript, rfl, rfl, rfl, rfl, rfl, rfl, hcode⟩⟩
  · obtain ⟨-, w, charged, rfl⟩ := takeHwError_ok h
    rw [raiseFault_hwError, same]
    rw [same] at charged ho
    refine ⟨rfl, rfl, rfl, rfl, rfl, rfl, rfl, rfl, rfl, rfl, rfl, rfl, rfl, rfl, rfl, rfl, rfl,
      .inr ⟨rfl, rfl, hscript, rfl, ⟨e, ho, fun noLevel => blurLevel_outLevel noLevel _⟩, ?_⟩⟩
    rcases charged with ⟨hc, rfl⟩ | ⟨hc, f, hf, rfl⟩
    · exact .inl ⟨hc, rfl⟩
    · exact .inr ⟨hc, f, hf, by rw [← sendWord_eq_or]⟩

/-! ### `FAULTED` is quiescent -/

/-- With no operation in flight the Transmitter has no step to take (R27). -/
theorem txStep_of_not_busy {s : State} (c : Config) (clock : Word32) (h : s.st.busy = false) :
    txStep c clock s = .next s := by
  simp [txStep, h]

/-- Where no call is outstanding, no operation in flight and no event named, an abandoned call may return (log 2). -/
theorem step_idle {s : State} (hscript : s.script = []) (ho : s.outstanding = none) (hb : s.st.busy = false) :
    step s = .next (lateReturn s) := by
  simp [step, stepUnder, hscript, idleTurn, ho, hb]

/-- Settles O25: by the next event of the script. -/
theorem faultedIsQuiescent : Obligations.FaultedIsQuiescent := by
  intro s hs ho noReset
  have hb : s.st.busy = false := by rw [hs]; rfl
  cases hscript : s.script with
  | nil => exact ⟨_, step_idle hscript ho hb, by rw [List.tail_nil, ← hscript]; rfl⟩
  | cons turn rest =>
    cases turn with
    | port w => exact ⟨_, (step_port hscript).trans (portTurn_of_faulted w hs), rfl⟩
    | reset => exact absurd hscript (noReset rest)
    | txStep clock => exact ⟨_, (step_txStep hscript).trans (txStep_of_not_busy Config.std clock hb), rfl⟩
    | hwReturn err => exact ⟨_, (step_hwReturn hscript).trans (hwReturn_of_no_call Config.std err ho), rfl⟩
    | lateReturn => exact ⟨_, step_lateReturn hscript, rfl⟩

/-! ### The clock and the carrier -/

/-- The event that a move adds is the call that the position names (R19, R27). -/
theorem Act.call_named {c : Config} {u t : State} {e : Event} (h : Act c u t) (added : t.trace = u.trace ++ [e]) :
    ∃ clock, nextCall c clock u = .ok (some e) := by
  have quiet (same : t.trace = u.trace) : False := by simp [same] at added
  cases h with
  | call e' clock _ _ named =>
    obtain rfl : e' = e := by simpa using added
    exact ⟨clock, named⟩
  | returned e' _ h => exact (quiet (afterReturn_trace (s := endCall u) h)).elim
  | hwError e' x w _ _ => exact (quiet (by rw [raiseFault_hwError])).elim
  | stay => exact (quiet rfl).elim
  | answer frame _ => exact (quiet rfl).elim
  | startCal _ => exact (quiet rfl).elim
  | send frame _ => exact (quiet rfl).elim
  | requestFault code w _ _ _ => exact (quiet rfl).elim
  | dummy clock _ _ _ => exact (quiet rfl).elim
  | late => exact (quiet rfl).elim

/-- The sub-steps of R79 that read the clock. -/
theorem calCall_now {c : Config} {clock k : Word32} {x : CalStep} (h : calCall c clock x = some (.now k)) :
    x = .cT0 ∨ x = .cT1 ∨ x = .cT2 ∨ x = .cT3 := by
  cases x <;> simp [calCall] at h ⊢

/-- The sub-step of R79 that configures the carrier (R80). -/
theorem calCall_carrier {c : Config} {clock : Word32} {p : Nat} {x : CalStep} (h : calCall c clock x = some (.carrier p)) :
    x = .cCarrier ∧ p = c.carrierPeriodTicks := by
  cases x <;> simp [calCall] at h ⊢
  exact h.symm

/-- Only a calibration names a call that is neither a level nor a sleep. -/
theorem nextCall_calibration {c : Config} {clock : Word32} {e : Event} {s : State} (h : nextCall c clock s = .ok (some e))
    (hl : ∀ l, e ≠ .level l) (hd : ∀ d, e ≠ .sleep d) :
    s.st = .calibrating ∧ ∃ x, s.calStep = .written x ∧ calCall c clock x = some e := by
  rcases nextCall_ok h with ⟨hs, -, x, hx, call⟩ | ⟨-, -, call⟩ | ⟨-, -, w, -, call⟩ | ⟨-, -, call⟩ |
    ⟨-, -, y, f, w, m, p, -, -, -, -, -, call⟩ | ⟨-, -, r, n, -, -, call⟩
  · exact ⟨hs, x, hx, call.symm⟩
  · exact absurd (Option.some.inj call) (hl _)
  · exact absurd (Option.some.inj call) (hd _)
  · exact absurd (Option.some.inj call) (hl _)
  · exact absurd (Option.some.inj call) (hd _)
  · exact absurd (Option.some.inj call) (hd _)

/-- Settles O37: the event a step adds is the call that the position names, and only the sub-steps of R79 name these two. -/
theorem clockIsReadInCalibrationOnly : Obligations.ClockIsReadInCalibrationOnly := by
  intro s t e h added
  rcases stepUnder_act h with ⟨rest, -, rfl⟩ | ⟨u, same, act⟩
  · have same : s.trace = s.trace ++ [e] := added
    simp at same
  rw [← same.trace_eq] at added
  obtain ⟨clock, named⟩ := act.call_named added
  rw [same] at named
  constructor
  · rintro k rfl
    obtain ⟨hs, x, hx, call⟩ := nextCall_calibration named (by simp) (by simp)
    have hx : s.calStep = .written x := hx
    exact ⟨hs, by simpa [hx] using calCall_now call⟩
  · rintro p rfl
    obtain ⟨hs, x, hx, call⟩ := nextCall_calibration named (by simp) (by simp)
    obtain ⟨rfl, period⟩ := calCall_carrier call
    exact ⟨hs, hx, period⟩

end Sys2Proof.Machine
end

section
/-! Proofs of the reset family (spec/70_reset_and_hazards.md): reset in any state and the returns of abandoned calls (R123),
and that nothing but reset leaves `FAULTED` or clears a fault or the profile (R124). -/

namespace Sys2Proof.Machine

/-! ### Late returns and reset -/

/-- Settles O28: a late return takes the oldest entry off the record, and a return with no call outstanding is ignored. -/
theorem lateReturnsAreIgnored : Obligations.LateReturnsAreIgnored := fun _ _ =>
  ⟨step_lateReturn, fun err hscript ho => (step_hwReturn hscript).trans (hwReturn_of_no_call Config.std err ho)⟩

/-- `STATUS` after a reset: it reads `st`, `fault_code` and `mpe`, all at their reset values. -/
theorem statusWord_resetCore (s : State) : statusWord (resetCore s) = 0 :=
  statusWord_reset

/-- Settles O27: the state after a reset has nothing outstanding, so every return is then one of O28. -/
theorem resetInAnyState : Obligations.ResetInAnyState := by
  intro s rest hscript
  refine ⟨resetCore (setScript rest s), step_reset hscript, statusWord_resetCore _, rfl, fun later hrest => ?_,
    fun err later hrest => ?_⟩
  · obtain ⟨late, -⟩ := lateReturnsAreIgnored (resetCore (setScript rest s)) later
    exact late hrest
  · obtain ⟨-, noCall⟩ := lateReturnsAreIgnored (resetCore (setScript rest s)) later
    exact noCall err hrest rfl

/-! ### What only reset clears -/

/-- A recorded fault and a measured effort in `s` are still there in `t` (R124). -/
structure NothingCleared (s t : State) : Prop where
  st : s.st = .faulted → t.st = .faulted
  faultCode : s.faultCode ≠ .noFault → t.faultCode ≠ .noFault
  faultReq : s.faultReq.isWritten = true → t.faultReq.isWritten = true
  wawe : s.wawe.isWritten = true → t.wawe.isWritten = true
  mpe : s.mpe.isWritten = true → t.mpe.isWritten = true

/-- A calibration sub-step writes an effort (R82, R85) or leaves it as it is. -/
theorem afterCal_effortsStayWritten {c : Config} {e : Event} {k : CalStep} {s t : State} (h : afterCal c e k s = .ok t) :
    (s.wawe.isWritten = true → t.wawe.isWritten = true) ∧ (s.mpe.isWritten = true → t.mpe.isWritten = true) := by
  rcases afterCal_ok h with ⟨-, rfl⟩ | ⟨-, rfl⟩ | ⟨-, x, -, rfl⟩ | ⟨-, rfl⟩ | ⟨-, n, -, rfl⟩ | ⟨-, x, a, -, -, rfl⟩ |
    ⟨-, rfl⟩ | ⟨-, x, -, rfl⟩ | ⟨-, x, a, -, -, rfl⟩ | ⟨-, rfl⟩
  case inr.inr.inr.inr.inr.inl => exact ⟨fun _ => rfl, id⟩
  case inr.inr.inr.inr.inr.inr.inr.inr.inl => exact ⟨id, fun _ => rfl⟩
  all_goals exact ⟨id, id⟩

/-- The return of a call leaves a written effort written. -/
theorem afterReturn_effortsStayWritten {c : Config} {e : Event} {s t : State} (h : afterReturn c e s = .ok t) :
    (s.wawe.isWritten = true → t.wawe.isWritten = true) ∧ (s.mpe.isWritten = true → t.mpe.isWritten = true) := by
  by_cases hs : s.st = .calibrating
  · obtain ⟨k, h⟩ : ∃ k, afterCal c e k s = .ok t := by
      rcases afterReturn_ok h with ⟨-, -, k, -, h⟩ | ⟨ht, -⟩ | ⟨ht, -⟩ | ⟨ht, -⟩ | ⟨ht, -⟩ | ⟨ht, -⟩
      · exact ⟨k, h⟩
      all_goals exact absurd (hs.symm.trans ht) (by decide)
    exact afterCal_effortsStayWritten h
  · obtain ⟨wawe, mpe⟩ := afterReturn_profile hs h
    rw [wawe, mpe]
    exact ⟨id, id⟩

/-- The return of a call clears nothing: it records no fault, and there is none to leave while an operation is in flight. -/
theorem afterReturn_nothingCleared {c : Config} {e : Event} {s t : State} (h : afterReturn c e s = .ok t) :
    NothingCleared s t := by
  have returned := afterReturn_returned h
  obtain ⟨wawe, mpe⟩ := afterReturn_effortsStayWritten h
  refine ⟨fun hf => ?_, ?_, ?_, wawe, mpe⟩
  · rcases afterReturn_busy h with hs | hs <;> exact absurd (hs.symm.trans hf) (by decide)
  · rw [returned.faultCode]; exact id
  · rw [returned.faultReq]; exact id

/-- No move but a reset clears a fault or an effort: a new fault replaces the record, and an accepted operation starts
outside `FAULTED`. -/
theorem Act.nothingCleared {c : Config} {u t : State} (h : Act c u t) : NothingCleared u t := by
  cases h with
  | returned e _ h => exact { afterReturn_nothingCleared (s := endCall u) h with }
  | requestFault code w _ fault _ => exact ⟨fun _ => rfl, fun _ => fault, fun _ => rfl, id, id⟩
  | hwError e x w _ _ => rw [raiseFault_hwError]; exact ⟨fun _ => rfl, fun _ => nofun, fun _ => rfl, id, id⟩
  | startCal hu => exact ⟨fun hf => absurd (hu.symm.trans hf) (by decide), id, id, id, id⟩
  | send frame hu => exact ⟨fun hf => absurd (hu.symm.trans hf) (by decide), id, id, id, id⟩
  | stay => exact ⟨id, id, id, id, id⟩
  | answer frame _ => exact ⟨id, id, id, id, id⟩
  | call e clock _ _ _ => exact ⟨id, id, id, id, id⟩
  | dummy clock _ _ _ => exact ⟨id, id, id, id, id⟩
  | late => exact ⟨id, id, id, id, id⟩

/-- Settles O26: a step is a reset, or a move of `Act`, which clears nothing. -/
theorem onlyResetLeavesFaulted : Obligations.OnlyResetLeavesFaulted := by
  intro s t h cleared
  rcases stepUnder_act h with ⟨rest, hscript, rfl⟩ | ⟨u, same, act⟩
  · exact ⟨⟨rest, hscript⟩, rfl, rfl, rfl⟩
  · have kept := act.nothingCleared
    rw [same] at kept
    rcases cleared with ⟨hs, ht⟩ | ⟨hs, ht⟩ | ⟨hs, ht⟩ | ⟨hs, ht⟩ | ⟨hs, ht⟩
    · exact absurd (kept.st hs) ht
    · exact absurd ht (kept.faultCode hs)
    · exact absurd (kept.faultReq hs) (ne_true_of_eq_false ht)
    · exact absurd (kept.wawe hs) (ne_true_of_eq_false ht)
    · exact absurd (kept.mpe hs) (ne_true_of_eq_false ht)

end Sys2Proof.Machine
end
